-- ==== Sys2Proof/Word.lean ====
section
/-! DEFINITION. The words of the hub: bytes, 7-bit addresses, and the numbers of ports, segments and table entries. -/

namespace Sys2Proof

/-- A byte on a controller port (R166). -/
abbrev Byte := BitVec 8

/-- A 7-bit alias or I2C address. -/
abbrev Addr := BitVec 7

/-- Controller ports 0 to 2. -/
abbrev Port := Fin 3

/-- Segments 0 to 3. -/
abbrev Seg := Fin 4

/-- Route entries 0 to 31 (R19). -/
abbrev RouteIdx := Fin 32

/-- Hold table entries 0 to 7 (R53). -/
abbrev HoldIdx := Fin 8

/-- Poll entries 0 to 15 (R113). -/
abbrev PollIdx := Fin 16

/-- Semaphores 0 to 7 (R146). -/
abbrev SemIdx := Fin 8

/-- The contenders of an arbiter, coded as chapter 11 codes them: ports 0 to 2, and 3 for the poll contender. -/
abbrev Contender := Fin 4

end Sys2Proof
end

