-- ==== Sys2Proof/Config.lean ====
section
/-! DEFINITION. The free values: what the manual leaves open and no proof may fix. -/

namespace Sys2Proof

/-- A free number for each value of the counter `State.freeCount`: which of the events of one mark is taken first
(log 15). -/
opaque Config.freeNat : Nat → Nat

/-- How many elements of its transaction the bus of a segment has finished since the value of `State.freeCount` before
this one (log 7). -/
opaque Config.freeMoves : Seg → Nat → Nat

/-- The acknowledge bits a transaction has seen when its limit expires at a mark of the idle hub (log 27). -/
opaque Config.freeAcks : Nat → List Bool

end Sys2Proof
end

