-- ==== Sys2Proof/Syntax.lean ====
section
/-! DEFINITION. The commands of the hub: one constructor for each row of the table of operations and events. -/

namespace Sys2Proof

/-- The request record of a SUBMIT frame, each field the byte received (R1). The write count byte is the length of
`data`: the request part carries exactly that many data bytes. -/
structure SubmitFields where
  tag : Byte
  kind : Byte
  mode : Byte
  aliasByte : Byte
  segment : Byte
  target : Byte
  flags : Byte
  readLen : Byte
  holdLimit : Byte
  data : List Byte
  deriving DecidableEq, Repr

/-- The fields of a ROUTE SET frame as received (R23). -/
structure RouteFields where
  index : Byte
  aliasByte : Byte
  segment : Byte
  target : Byte
  right0 : Byte
  right1 : Byte
  right2 : Byte
  posted : Byte
  holdLimit : Byte
  deriving DecidableEq, Repr

/-- The fields of a POLL SET frame as received (R123). -/
structure PollFields where
  index : Byte
  route : Byte
  pointerCount : Byte
  pointer0 : Byte
  pointer1 : Byte
  readLen : Byte
  period : BitVec 16
  notify : Byte
  deriving DecidableEq, Repr

/-- The fields of a SEGMENT SET frame as received (R106): the ranking highest first, the quanta of port 0, 1, 2 and
the poll contender. -/
structure SegmentFields where
  segment : Byte
  speed : Byte
  limit : Byte
  mode : Byte
  rank1 : Byte
  rank2 : Byte
  rank3 : Byte
  rank4 : Byte
  quantum0 : Byte
  quantum1 : Byte
  quantum2 : Byte
  quantum3 : Byte
  deriving DecidableEq, Repr

/-- The steps of the part. A frame carries the port it arrives on and its request bytes; an event carries what it
happens to and what the outside world decides in it. -/
inductive Instr where
  | submit (p : Port) (f : SubmitFields)
  | cancel (p : Port) (tag : Byte)
  | laneInspect (p : Port)
  | fetch (p : Port)
  | fetchNormalEnd (p : Port)
  | postedFault (p : Port)
  | postedFaultNormalEnd (p : Port)
  | holdEnds (p : Port)
  | holdEndsNormalEnd (p : Port)
  | notices (p : Port)
  | noticesNormalEnd (p : Port)
  | causes (p : Port) (clear : Byte)
  | causeMask (p : Port) (mask : Byte)
  | semTake (p : Port) (n : Byte)
  | semGive (p : Port) (n : Byte)
  | semBreak (p : Port) (n : Byte)
  | routeSet (p : Port) (f : RouteFields)
  | routeClear (p : Port) (index : Byte)
  | routeGet (p : Port) (index : Byte)
  | pollSet (p : Port) (f : PollFields)
  | pollStart (p : Port) (index : Byte)
  | pollStop (p : Port) (index : Byte)
  | pollGet (p : Port) (index : Byte)
  | pollRead (p : Port) (index : Byte)
  | segmentSet (p : Port) (f : SegmentFields)
  | segmentGet (p : Port) (segment : Byte)
  | segmentDisable (p : Port) (segment : Byte)
  | segmentRestore (p : Port) (segment : Byte)
  | statsClear (p : Port) (segment : Byte)
  | hubInfo (p : Port)
  | portReset (p : Port)
  | portResetNormalEnd (p : Port)
  | hubReset (p : Port)
  | hubResetNormalEnd (p : Port)
  | badFrame (p : Port) (kind : Byte)
  | framingError (p : Port)
  | prstxnFall (p : Port)
  | prstxnRise (p : Port)
  | resetnFall
  /-- The levels of ROLE0, ROLE1 and ROLE2 when RESETN rises; high makes a SUPERVISOR (R162). -/
  | resetnRise (role0 role1 role2 : Bool)
  | arbiterDecision (g : Seg)
  /-- The settlement of the head of port `p`'s lane for segment `g`. -/
  | holdSettlement (p : Port) (g : Seg)
  | releaseSettlement (p : Port) (g : Seg)
  | holdDecrease (e : HoldIdx)
  | holdExpiry (e : HoldIdx)
  /-- `acks` are the acknowledge bits the engine read from the target, in order (true for an acknowledge), `data`
  the bytes the target sent (R94). -/
  | transactionEnd (g : Seg) (acks : List Bool) (data : List Byte)
  /-- `acks` are the acknowledge bits read before the conflict (R95). -/
  | lineConflict (g : Seg) (acks : List Bool)
  /-- `acks` are the acknowledge bits read before the limit expired (R96). -/
  | timeout (g : Seg) (acks : List Bool)
  | cutEnd (g : Seg)
  | lineLowInIdle (g : Seg)
  | freeWindowComplete (g : Seg)
  | limitWindowEnd (g : Seg)
  /-- `sdaHigh` is what SDA reads once SCL is high (R100). -/
  | recoverySclHigh (g : Seg) (sdaHigh : Bool)
  | recoverySclTimeout (g : Seg)
  /-- `sdaHigh` is what SDA read while SCL was high in this pulse (R100). -/
  | recoveryPulseEnd (g : Seg) (sdaHigh : Bool)
  | recoveryStopEnd (g : Seg)
  | pollCountdown (n : PollIdx)
  | pollDue (n : PollIdx)
  | ageIncrease
  | frameEndsEarly (p : Port)
  | freeWindowRestart (g : Seg)
  deriving DecidableEq, Repr

end Sys2Proof
end

