-- ==== Sys2Proof/Decode.lean ====
section
/-! DEFINITION. The frame kinds and request layouts of chapter 11: the command that a received frame is, the request
bytes of a command, and the (empty) decoding of table words. -/

namespace Sys2Proof

/-- The 28 frame kinds (section 11.2). -/
inductive FrameKind where
  | submit | cancel | laneInspect | fetch | postedFault | holdEnds | notices | causes | causeMask
  | semTake | semGive | semBreak | routeSet | routeClear | routeGet
  | pollSet | pollStart | pollStop | pollGet | pollRead
  | segmentSet | segmentGet | segmentDisable | segmentRestore | statsClear
  | hubInfo | portReset | hubReset
  deriving DecidableEq, Repr

/-- The code of a frame kind, byte 0 of its request part (section 11.2). -/
def FrameKind.code : FrameKind → Byte
  | .submit => 0x10 | .cancel => 0x11 | .laneInspect => 0x12 | .fetch => 0x13 | .postedFault => 0x14
  | .holdEnds => 0x15 | .notices => 0x16 | .causes => 0x20 | .causeMask => 0x21
  | .semTake => 0x30 | .semGive => 0x31 | .semBreak => 0x32
  | .routeSet => 0x40 | .routeClear => 0x41 | .routeGet => 0x42
  | .pollSet => 0x50 | .pollStart => 0x51 | .pollStop => 0x52 | .pollGet => 0x53 | .pollRead => 0x54
  | .segmentSet => 0x60 | .segmentGet => 0x61 | .segmentDisable => 0x62 | .segmentRestore => 0x63
  | .statsClear => 0x64 | .hubInfo => 0x70 | .portReset => 0x71 | .hubReset => 0x72

/-- Every frame kind. -/
def FrameKind.all : List FrameKind :=
  [.submit, .cancel, .laneInspect, .fetch, .postedFault, .holdEnds, .notices, .causes, .causeMask,
   .semTake, .semGive, .semBreak, .routeSet, .routeClear, .routeGet,
   .pollSet, .pollStart, .pollStop, .pollGet, .pollRead,
   .segmentSet, .segmentGet, .segmentDisable, .segmentRestore, .statsClear, .hubInfo, .portReset, .hubReset]

/-- The frame kind a first byte names, if it is one of the 28 (R157). -/
def FrameKind.ofCode (b : Byte) : Option FrameKind := FrameKind.all.find? (fun k => k.code == b)

/-- The request length in bytes, the kind byte included (section 11.3). For SUBMIT it is the part before the write
data, which adds the write count (R154). -/
def FrameKind.requestLen : FrameKind → Nat
  | .submit => 11
  | .routeSet | .pollSet => 10
  | .segmentSet => 13
  | .laneInspect | .fetch | .postedFault | .holdEnds | .notices | .hubInfo | .portReset | .hubReset => 1
  | .cancel | .causes | .causeMask | .semTake | .semGive | .semBreak | .routeClear | .routeGet
  | .pollStart | .pollStop | .pollGet | .pollRead
  | .segmentGet | .segmentDisable | .segmentRestore | .statsClear => 2

/-- The reply length in bytes, the status byte included (section 11.3). -/
def FrameKind.replyLen : FrameKind → Nat
  | .submit | .cancel | .causeMask => 2
  | .laneInspect => 66
  | .fetch => 40
  | .postedFault => 8
  | .holdEnds => 15
  | .notices => 6
  | .causes => 4
  | .semTake | .semGive | .semBreak => 3
  | .routeSet | .routeClear => 3
  | .routeGet => 10
  | .pollGet | .pollRead => 15
  | .segmentGet => 42
  | .hubInfo => 9
  | .pollSet | .pollStart | .pollStop | .segmentSet | .segmentDisable | .segmentRestore | .statsClear
  | .portReset | .hubReset => 1

/-- The request part of a SUBMIT frame, in byte order (section 11.3). -/
def SubmitFields.bytes (f : SubmitFields) : List Byte :=
  [FrameKind.submit.code, f.tag, f.kind, f.mode, f.aliasByte, f.segment, f.target, f.flags, f.readLen, f.holdLimit,
   BitVec.ofNat 8 f.data.length] ++ f.data

/-- The request part of a ROUTE SET frame (section 11.3). -/
def RouteFields.bytes (f : RouteFields) : List Byte :=
  [FrameKind.routeSet.code, f.index, f.aliasByte, f.segment, f.target, f.right0, f.right1, f.right2, f.posted,
   f.holdLimit]

/-- The request part of a POLL SET frame; the period goes most-significant byte first (R166). -/
def PollFields.bytes (f : PollFields) : List Byte :=
  [FrameKind.pollSet.code, f.index, f.route, f.pointerCount, f.pointer0, f.pointer1, f.readLen,
   f.period.extractLsb' 8 8, f.period.extractLsb' 0 8, f.notify]

/-- The request part of a SEGMENT SET frame (section 11.3). -/
def SegmentFields.bytes (f : SegmentFields) : List Byte :=
  [FrameKind.segmentSet.code, f.segment, f.speed, f.limit, f.mode, f.rank1, f.rank2, f.rank3, f.rank4,
   f.quantum0, f.quantum1, f.quantum2, f.quantum3]

/-- The command of a frame of kind `k` whose request part is `bytes`, the kind byte at position 0 (section 11.3). -/
def FrameKind.command (k : FrameKind) (p : Port) (bytes : List Byte) : Instr :=
  let b (i : Nat) : Byte := bytes.getD i 0
  match k with
  | .submit => .submit p ⟨b 1, b 2, b 3, b 4, b 5, b 6, b 7, b 8, b 9, (bytes.drop 11).take (b 10).toNat⟩
  | .cancel => .cancel p (b 1)
  | .laneInspect => .laneInspect p
  | .fetch => .fetch p
  | .postedFault => .postedFault p
  | .holdEnds => .holdEnds p
  | .notices => .notices p
  | .causes => .causes p (b 1)
  | .causeMask => .causeMask p (b 1)
  | .semTake => .semTake p (b 1)
  | .semGive => .semGive p (b 1)
  | .semBreak => .semBreak p (b 1)
  | .routeSet => .routeSet p ⟨b 1, b 2, b 3, b 4, b 5, b 6, b 7, b 8, b 9⟩
  | .routeClear => .routeClear p (b 1)
  | .routeGet => .routeGet p (b 1)
  | .pollSet => .pollSet p ⟨b 1, b 2, b 3, b 4, b 5, b 6, b 7 ++ b 8, b 9⟩
  | .pollStart => .pollStart p (b 1)
  | .pollStop => .pollStop p (b 1)
  | .pollGet => .pollGet p (b 1)
  | .pollRead => .pollRead p (b 1)
  | .segmentSet =>
    .segmentSet p ⟨b 1, b 2, b 3, b 4, b 5, b 6, b 7, b 8, b 9, b 10, b 11, b 12⟩
  | .segmentGet => .segmentGet p (b 1)
  | .segmentDisable => .segmentDisable p (b 1)
  | .segmentRestore => .segmentRestore p (b 1)
  | .statsClear => .statsClear p (b 1)
  | .hubInfo => .hubInfo p
  | .portReset => .portReset p
  | .hubReset => .hubReset p

/-- The length of the request part that `bytes` begins, for a known kind: SUBMIT adds the write count it carries
(R154). It is `none` while the write count itself has not been received. -/
def FrameKind.requestPart (k : FrameKind) (bytes : List Byte) : Option Nat :=
  match k with
  | .submit => bytes[10]?.map (fun w => 11 + w.toNat)
  | _ => some k.requestLen

/-- The whole request part is among the bytes clocked since CSxN fell (R154); an unknown kind has a request part of one
byte (R157). -/
def requestReceived (bytes : List Byte) : Bool :=
  match bytes with
  | [] => false
  | kind :: _ =>
    match FrameKind.ofCode kind with
    | none => true
    | some k =>
      match k.requestPart bytes with
      | none => false
      | some n => n ≤ bytes.length

/-- What the normal frame end of a kind does beside ending the frame (R158): a command of its own for six kinds. -/
def FrameKind.normalEnd (k : FrameKind) (p : Port) : List Instr :=
  match k with
  | .fetch => [.fetchNormalEnd p]
  | .postedFault => [.postedFaultNormalEnd p]
  | .holdEnds => [.holdEndsNormalEnd p]
  | .notices => [.noticesNormalEnd p]
  | .portReset => [.portResetNormalEnd p]
  | .hubReset => [.hubResetNormalEnd p]
  | _ => []

/-- The commands that one whole frame on port `p` is, from the complete bytes clocked between the fall and the rise
of CSxN: a framing error when the request part is incomplete (R156), BAD_FRAME for an unknown kind (R157), else the
frame's command and then its normal or early end (R158). -/
def frameCommands (p : Port) (bytes : List Byte) : List Instr :=
  match bytes with
  | [] => [.framingError p]
  | kind :: _ =>
    match FrameKind.ofCode kind with
    | none => .badFrame p kind :: (if bytes.length < 3 then [.frameEndsEarly p] else [])
    | some k =>
      match k.requestPart bytes with
      | none => [.framingError p]
      | some n =>
        if bytes.length < n then [.framingError p]
        else k.command p (bytes.take n) ::
          (if bytes.length < n + 1 + k.replyLen then [.frameEndsEarly p] else k.normalEnd p)

/-- The request part of the frame a command is, for the 28 commands that are frames of a known kind. -/
def Instr.requestBytes : Instr → Option (List Byte)
  | .submit _ f => some f.bytes
  | .cancel _ t => some [FrameKind.cancel.code, t]
  | .laneInspect _ => some [FrameKind.laneInspect.code]
  | .fetch _ => some [FrameKind.fetch.code]
  | .postedFault _ => some [FrameKind.postedFault.code]
  | .holdEnds _ => some [FrameKind.holdEnds.code]
  | .notices _ => some [FrameKind.notices.code]
  | .causes _ c => some [FrameKind.causes.code, c]
  | .causeMask _ m => some [FrameKind.causeMask.code, m]
  | .semTake _ n => some [FrameKind.semTake.code, n]
  | .semGive _ n => some [FrameKind.semGive.code, n]
  | .semBreak _ n => some [FrameKind.semBreak.code, n]
  | .routeSet _ f => some f.bytes
  | .routeClear _ i => some [FrameKind.routeClear.code, i]
  | .routeGet _ i => some [FrameKind.routeGet.code, i]
  | .pollSet _ f => some f.bytes
  | .pollStart _ i => some [FrameKind.pollStart.code, i]
  | .pollStop _ i => some [FrameKind.pollStop.code, i]
  | .pollGet _ i => some [FrameKind.pollGet.code, i]
  | .pollRead _ i => some [FrameKind.pollRead.code, i]
  | .segmentSet _ f => some f.bytes
  | .segmentGet _ g => some [FrameKind.segmentGet.code, g]
  | .segmentDisable _ g => some [FrameKind.segmentDisable.code, g]
  | .segmentRestore _ g => some [FrameKind.segmentRestore.code, g]
  | .statsClear _ g => some [FrameKind.statsClear.code, g]
  | .hubInfo _ => some [FrameKind.hubInfo.code]
  | .portReset _ => some [FrameKind.portReset.code]
  | .hubReset _ => some [FrameKind.hubReset.code]
  | .fetchNormalEnd _ | .postedFaultNormalEnd _ | .holdEndsNormalEnd _ | .noticesNormalEnd _
  | .portResetNormalEnd _ | .hubResetNormalEnd _ | .badFrame _ _ | .framingError _
  | .prstxnFall _ | .prstxnRise _ | .resetnFall | .resetnRise _ _ _
  | .arbiterDecision _ | .holdSettlement _ _ | .releaseSettlement _ _ | .holdDecrease _ | .holdExpiry _
  | .transactionEnd _ _ _ | .lineConflict _ _ | .timeout _ _ | .cutEnd _ | .lineLowInIdle _
  | .freeWindowComplete _ | .limitWindowEnd _ | .recoverySclHigh _ _ | .recoverySclTimeout _
  | .recoveryPulseEnd _ _ | .recoveryStopEnd _ | .pollCountdown _ | .pollDue _ | .ageIncrease
  | .frameEndsEarly _ | .freeWindowRestart _ => none

/-- The port a command arrives on or concerns, for the commands that have one. -/
def Instr.port? : Instr → Option Port
  | .submit p _ | .cancel p _ | .laneInspect p | .fetch p | .fetchNormalEnd p | .postedFault p
  | .postedFaultNormalEnd p | .holdEnds p | .holdEndsNormalEnd p | .notices p | .noticesNormalEnd p
  | .causes p _ | .causeMask p _ | .semTake p _ | .semGive p _ | .semBreak p _
  | .routeSet p _ | .routeClear p _ | .routeGet p _ | .pollSet p _ | .pollStart p _ | .pollStop p _
  | .pollGet p _ | .pollRead p _ | .segmentSet p _ | .segmentGet p _ | .segmentDisable p _
  | .segmentRestore p _ | .statsClear p _ | .hubInfo p | .portReset p | .portResetNormalEnd p
  | .hubReset p | .hubResetNormalEnd p | .badFrame p _ | .framingError p | .prstxnFall p | .prstxnRise p
  | .holdSettlement p _ | .releaseSettlement p _ | .frameEndsEarly p => some p
  | .resetnFall | .resetnRise _ _ _ | .arbiterDecision _ | .holdDecrease _ | .holdExpiry _
  | .transactionEnd _ _ _ | .lineConflict _ _ | .timeout _ _ | .cutEnd _ | .lineLowInIdle _
  | .freeWindowComplete _ | .limitWindowEnd _ | .recoverySclHigh _ _ | .recoverySclTimeout _
  | .recoveryPulseEnd _ _ | .recoveryStopEnd _ | .pollCountdown _ | .pollDue _ | .ageIncrease
  | .freeWindowRestart _ => none

/-- The table gives no row bits, so no word spells a command. -/
def decodeTableWord (_nbits _w : Nat) : Option Instr := none

end Sys2Proof
end

