-- ==== Sys2Proof/Machine/Types.lean ====
section
/-! DEFINITION. The records each block of the hub holds. -/

namespace Sys2Proof.Machine

/-- A segment and a target address taken together (R3). -/
structure Key where
  seg : Seg
  target : Addr
  deriving DecidableEq, Repr

/-- The six request kinds (R2). -/
inductive Kind where
  | read | write | writeRead | probe | hold | release
  deriving DecidableEq, Repr

/-- The three states of an open request (R37). -/
inductive ReqState where
  | queued | waitingHold | inFlight
  deriving DecidableEq, Repr

/-- The fourteen result statuses (section 11.2). -/
inductive Status where
  | done | addrNack | dataNack | timeout | lineConflict | segmentOffline | routeChanged | holdLost | cancelled
  | holdGranted | alreadyHolding | holdTableFull | released | notHolder
  deriving DecidableEq, Repr

/-- The reply statuses: admission codes and frame statuses share one space (section 11.2). -/
inductive ReplyStatus where
  | ok | badKind | badLength | badFlags | tagInUse | noRoute | notPermitted | segmentOffline | queueFull
  | resultSpace | empty | badFrame | notSupervisor | notClaimed | badIndex | badValue | aliasTaken | inFlight
  | unknownTag | notOffline | alreadyOffline | got | alreadyOwned | semBusy | freed | notOwner
  deriving DecidableEq, Repr

/-- An open request as admission recorded it (R15). `route` is the route index, or none for "direct"; write data and
read length are empty and 0 where absent; `holdLimit` is present for HOLD alone. -/
structure Request where
  tag : Byte
  kind : Kind
  posted : Bool
  fence : Bool
  underHold : Bool
  route : Option RouteIdx
  key : Key
  writeData : List Byte
  readLen : Nat
  holdLimit : Option Nat
  reservation : Bool
  state : ReqState
  deriving DecidableEq, Repr

/-- A result record (R132). Read data is empty where absent. -/
structure Result where
  tag : Byte
  kind : Kind
  status : Status
  ackCount : Nat
  readData : List Byte
  holdRemaining : Option Nat
  deriving DecidableEq, Repr

/-- The failure a posted-fault record holds (R135). -/
structure PostedFault where
  tag : Byte
  route : Option RouteIdx
  key : Key
  status : Status
  ackCount : Nat
  further : Nat
  deriving DecidableEq, Repr

/-- Why a hold ended without its holder's asking (R137). -/
inductive HoldEndReason where
  | expired | segmentOffline
  deriving DecidableEq, Repr

/-- A hold-end record (R137). -/
structure HoldEnd where
  key : Key
  reason : HoldEndReason
  deriving DecidableEq, Repr

/-- The four notice sets of a port; bit n of a set is member n (R139). -/
structure NoticeSets where
  poll : BitVec 16
  seg : BitVec 4
  freed : BitVec 8
  lost : BitVec 8
  deriving DecidableEq, Repr

/-- What a frame in progress still does at its normal end (R133, R164): the snapshot it reported, and what has been
added since. -/
inductive Snapshot where
  /-- Nothing to do. -/
  | none
  /-- FETCH returned this record (R134). -/
  | fetch (r : Result)
  /-- POSTED FAULT returned a failure; `entered` tells whether one was entered since (R136). -/
  | postedFault (entered : Bool)
  /-- HOLD ENDS reported the first `count` records; `lost` ends have been lost since (R138). -/
  | holdEnds (count lost : Nat)
  /-- NOTICES reported these members; `again` were added since (R140). -/
  | notices (reported again : NoticeSets)
  /-- HUB RESET passed its checks (R164). -/
  | hubReset
  deriving DecidableEq, Repr

/-- The frame that a port took last, until it ends or the next one is taken (log 3): `kind` is none for an unknown kind
(R157). -/
structure Frame where
  kind : Option FrameKind
  requestLen : Nat
  reply : List Byte
  snapshot : Snapshot
  deriving DecidableEq, Repr

/-- The role of a port (R162). -/
inductive Role where
  | member | supervisor
  deriving DecidableEq, Repr

/-- Everything one controller port holds: port interface, lane store, result store and attention unit.
`inReset` is the level of PRSTxN: low is true (R159). `reqs` is the lane store in admission order (R35). -/
structure PortState where
  role : Role
  inReset : Bool
  frame : Option Frame
  framingFlag : Bool
  framingCount : Nat
  mask : BitVec 7
  reqs : List Request
  results : List Result
  postedFault : Option PostedFault
  holdEnds : List HoldEnd
  lostEnds : Nat
  notices : NoticeSets
  deriving DecidableEq, Repr

/-- The right a route entry gives a port (R10). -/
inductive Right where
  | none | read | readWrite
  deriving DecidableEq, Repr

/-- A route entry (R19). -/
structure RouteEntry where
  valid : Bool
  aliasAddr : Addr
  key : Key
  rights : Vector Right 3
  posted : Bool
  holdLimit : Nat
  deriving DecidableEq, Repr

/-- A waiter record (R54). -/
structure Waiter where
  port : Port
  tag : Byte
  limit : Nat
  deriving DecidableEq, Repr

/-- A used hold entry (R53). -/
structure HoldEntry where
  key : Key
  holder : Port
  remaining : Nat
  waiters : List Waiter
  deriving DecidableEq, Repr

/-- The arbitration modes (R71). -/
inductive ArbMode where
  | priority | deficit
  deriving DecidableEq, Repr

/-- A segment arbiter (R71); `ranking` is highest first. -/
structure Arbiter where
  mode : ArbMode
  ranking : Vector Contender 4
  quanta : Vector Nat 4
  deficits : Vector Nat 4
  current : Contender
  deriving DecidableEq, Repr

/-- The phases of a transaction (R88). -/
inductive Phase where
  | start | address | write | restart | read | stop
  deriving DecidableEq, Repr

/-- The elements a transaction is built from (R90, R93). An address element carries the byte sent, direction bit
included; a read element tells whether the engine acknowledges the byte. -/
inductive BusElement where
  | start
  | address (b : Byte)
  | write (b : Byte)
  | restart
  | read (acked : Bool)
  | stop
  deriving DecidableEq, Repr

/-- What a transaction does on the bus (R93): the target addressed, the bytes written, the number of bytes read. -/
structure Work where
  target : Addr
  write : List Byte
  readLen : Nat
  deriving DecidableEq, Repr

/-- What caused a cut, which decides where it ends (R109). -/
inductive CutCause where
  | portReset | hubReset
  deriving DecidableEq, Repr

/-- Whose transaction an engine carries; a transaction being cut is nobody's (R88, R109). -/
inductive Carrier where
  | port (p : Port)
  | poll (n : PollIdx)
  | cut (c : CutCause)
  deriving DecidableEq, Repr

/-- The three bit rates (R88). -/
inductive Speed where
  | khz100 | khz400 | khz1000
  deriving DecidableEq, Repr

/-- A transaction in progress: `ahead` are the elements it had before it at the grant, or at the cut (R93, R109);
`speed` and `limit` are those taken at the grant (R92); `marks` counts the millisecond marks since then (R96). `since`
is the model's own: the value of `State.freeCount` from which on the bus has finished elements of `ahead` (log 7). -/
structure Transaction where
  carrier : Carrier
  work : Work
  ahead : List BusElement
  speed : Speed
  limit : Nat
  marks : Nat
  since : Nat
  deriving DecidableEq, Repr

/-- Where a recovery stands (R100). -/
inductive RecoveryStep where
  | waitScl
  | pulse (n : Nat)
  | stop
  deriving DecidableEq, Repr

/-- The six states of a segment engine with what each of them holds (R88, R98, R100, R112). In CHECKING the two
counts are the marks of the free window and of the limit window. In RECOVERING `marks` counts since the present
wait began and `hubReset` tells that a HUB RESET was taken meanwhile. -/
inductive EngineState where
  | idle
  | active (t : Transaction)
  | checking (free limit : Nat)
  | recovering (step : RecoveryStep) (marks : Nat) (hubReset : Bool)
  | faulted
  | disabled
  deriving DecidableEq, Repr

/-- The last reason of a fault record (R88). -/
inductive FaultReason where
  | none | sclStuck | sdaStuck | notFree
  deriving DecidableEq, Repr

/-- The seven statistics (R108). -/
structure Stats where
  started : Nat
  addrNacks : Nat
  dataNacks : Nat
  timeouts : Nat
  lineConflicts : Nat
  recoveries : Nat
  faults : Nat
  deriving DecidableEq, Repr

/-- A segment engine (R88). -/
structure Engine where
  state : EngineState
  disablePending : Bool
  tries : Nat
  faultReason : FaultReason
  faultCount : Nat
  stats : Stats
  speed : Speed
  limit : Nat
  deriving DecidableEq, Repr

/-- Whether a poll entry is polled (R115). -/
inductive PollState where
  | off | active | suspended
  deriving DecidableEq, Repr

/-- Whether an instance of a poll entry is in a due list or on the bus (R114). -/
inductive PollMark where
  | none | queued | inFlight
  deriving DecidableEq, Repr

/-- The configuration of a poll entry (R113). Bit p of `notify` is port p. -/
structure PollConfig where
  route : RouteIdx
  pointerCount : Fin 3
  pointer0 : Byte
  pointer1 : Byte
  readLen : Nat
  period : Nat
  notify : BitVec 3
  deriving DecidableEq, Repr

/-- The result group of a poll entry (R114); status none is NONE. -/
structure PollResult where
  status : Option Status
  sequence : BitVec 8
  valid : Bool
  data : List Byte
  age : Nat
  deriving DecidableEq, Repr

/-- A poll entry (R113, R114). -/
structure PollEntry where
  config : PollConfig
  state : PollState
  countdown : Nat
  mark : PollMark
  discard : Bool
  overrun : Nat
  result : PollResult
  deriving DecidableEq, Repr

/-- A semaphore (R146). Bit p of `interest` is port p. -/
structure Semaphore where
  owner : Option Port
  interest : BitVec 3
  deriving DecidableEq, Repr

end Sys2Proof.Machine
end

