-- ==== Sys2Proof/Machine/Operands.lean ====
section
/-! DEFINITION. Every operand form: how the hub reads the bytes of a received frame, and the bytes it answers with. -/

namespace Sys2Proof.Machine

/-! ### Received bytes (R166) -/

/-- An address byte holds its address in the low seven bits; the top bit is ignored (R166). -/
def readAddr (b : Byte) : Addr := b.setWidth 7

/-- The usable I2C addresses are 0x08 to 0x77 (00_scope.md section 5). -/
def usable (a : Addr) : Bool := 0x08 ≤ a.toNat && a.toNat ≤ 0x77

/-- An index or number below `n`, if the byte is one (R166). -/
def readIdx (n : Nat) (b : Byte) : Option (Fin n) := if h : b.toNat < n then some ⟨b.toNat, h⟩ else none

/-- The request kind of a code (section 11.2). -/
def readKind (b : Byte) : Option Kind :=
  if b = 0x01 then some .read else if b = 0x02 then some .write else if b = 0x03 then some .writeRead
  else if b = 0x04 then some .probe else if b = 0x05 then some .hold else if b = 0x06 then some .release else none

/-- The addressing mode of a code: false for ALIAS, true for DIRECT (section 11.2). -/
def readDirect (b : Byte) : Option Bool := if b = 0x00 then some false else if b = 0x01 then some true else none

/-- POSTED, bit 0 of the SUBMIT flags; bits not assigned are ignored (R166). -/
def flagPosted (b : Byte) : Bool := b.getLsbD 0

/-- FENCE, bit 1 of the SUBMIT flags. -/
def flagFence (b : Byte) : Bool := b.getLsbD 1

/-- UNDER_HOLD, bit 2 of the SUBMIT flags. -/
def flagUnderHold (b : Byte) : Bool := b.getLsbD 2

/-- The right of a code (section 11.2). -/
def readRight (b : Byte) : Option Right :=
  if b = 0x00 then some .none else if b = 0x01 then some .read else if b = 0x02 then some .readWrite else none

/-- Yes or no of a code (section 11.2). -/
def readYesNo (b : Byte) : Option Bool := if b = 0x00 then some false else if b = 0x01 then some true else none

/-- The speed of a code (section 11.2). -/
def readSpeed (b : Byte) : Option Speed :=
  if b = 0x00 then some .khz100 else if b = 0x01 then some .khz400 else if b = 0x02 then some .khz1000 else none

/-- The arbitration mode of a code (section 11.2). -/
def readMode (b : Byte) : Option ArbMode :=
  if b = 0x00 then some .priority else if b = 0x01 then some .deficit else none

/-- A ranking that names each of the four contenders exactly once (R84). -/
def readRanking (b1 b2 b3 b4 : Byte) : Option (Vector Contender 4) :=
  match readIdx 4 b1, readIdx 4 b2, readIdx 4 b3, readIdx 4 b4 with
  | some c1, some c2, some c3, some c4 => if [c1, c2, c3, c4].Nodup then some #v[c1, c2, c3, c4] else none
  | _, _, _, _ => none

/-- A quantum of 8 to 255 (R84). -/
def quantumFits (b : Byte) : Bool := 8 ≤ b.toNat

/-- A notify set that names no port above 2 (R123, R166). -/
def readNotify (b : Byte) : Option (BitVec 3) := if b.toNat < 8 then some (b.setWidth 3) else none

/-! ### Codes sent (section 11.2) -/

/-- A number as a reply byte. -/
def byte (n : Nat) : Byte := BitVec.ofNat 8 n

/-- A number of two bytes, most-significant byte first (R166). -/
def bytes2 (n : Nat) : List Byte := [byte (n / 256), byte (n % 256)]

/-- A yes or no, or a set or cleared flag. -/
def boolByte (b : Bool) : Byte := if b then 0x01 else 0x00

def Kind.code : Kind → Byte
  | .read => 0x01 | .write => 0x02 | .writeRead => 0x03 | .probe => 0x04 | .hold => 0x05 | .release => 0x06

def ReqState.code : ReqState → Byte
  | .queued => 0x01 | .waitingHold => 0x02 | .inFlight => 0x03

def Status.code : Status → Byte
  | .done => 0x00 | .addrNack => 0x01 | .dataNack => 0x02 | .timeout => 0x03 | .lineConflict => 0x04
  | .segmentOffline => 0x05 | .routeChanged => 0x06 | .holdLost => 0x07 | .cancelled => 0x08
  | .holdGranted => 0x09 | .alreadyHolding => 0x0A | .holdTableFull => 0x0B | .released => 0x0C
  | .notHolder => 0x0D

def ReplyStatus.code : ReplyStatus → Byte
  | .ok => 0x00 | .badKind => 0x01 | .badLength => 0x02 | .badFlags => 0x03 | .tagInUse => 0x04 | .noRoute => 0x05
  | .notPermitted => 0x06 | .segmentOffline => 0x07 | .queueFull => 0x08 | .resultSpace => 0x09
  | .empty => 0x10 | .badFrame => 0x11 | .notSupervisor => 0x12 | .notClaimed => 0x13 | .badIndex => 0x14
  | .badValue => 0x15 | .aliasTaken => 0x16 | .inFlight => 0x17 | .unknownTag => 0x18 | .notOffline => 0x19
  | .alreadyOffline => 0x1A | .got => 0x1B | .alreadyOwned => 0x1C | .semBusy => 0x1D | .freed => 0x1E
  | .notOwner => 0x1F

def Right.code : Right → Byte
  | .none => 0x00 | .read => 0x01 | .readWrite => 0x02

def Speed.code : Speed → Byte
  | .khz100 => 0x00 | .khz400 => 0x01 | .khz1000 => 0x02

def ArbMode.code : ArbMode → Byte
  | .priority => 0x00 | .deficit => 0x01

def EngineState.code : EngineState → Byte
  | .idle => 0x00 | .active _ => 0x01 | .checking _ _ => 0x02 | .recovering _ _ _ => 0x03 | .faulted => 0x04
  | .disabled => 0x05

def Phase.code : Phase → Byte
  | .start => 0x01 | .address => 0x02 | .write => 0x03 | .restart => 0x04 | .read => 0x05 | .stop => 0x06

/-- An occupant: a port's number, a poll entry as 0x10 + n, none as 0xFF. -/
def Carrier.code : Carrier → Byte
  | .port p => byte p.val
  | .poll n => byte (0x10 + n.val)
  | .cut _ => 0xFF

def FaultReason.code : FaultReason → Byte
  | .none => 0x00 | .sclStuck => 0x01 | .sdaStuck => 0x02 | .notFree => 0x03

def PollState.code : PollState → Byte
  | .off => 0x00 | .active => 0x01 | .suspended => 0x02

def PollMark.code : PollMark → Byte
  | .none => 0x00 | .queued => 0x01 | .inFlight => 0x02

def HoldEndReason.code : HoldEndReason → Byte
  | .expired => 0x01 | .segmentOffline => 0x02

def Role.code : Role → Byte
  | .member => 0x00 | .supervisor => 0x01

/-- A poll status; NONE reads 0xFF. -/
def pollStatusCode : Option Status → Byte
  | none => 0xFF
  | some st => st.code

/-- A port or owner; none reads 0xFF (R167). -/
def ownerCode : Option Port → Byte
  | none => 0xFF
  | some p => byte p.val

/-- A route index, 0xFF for "direct" (R167). -/
def routeCode : Option RouteIdx → Byte
  | none => 0xFF
  | some i => byte i.val

/-! ### Reply parts (R167) -/

/-- `n` bytes: the bytes given, and 0x00 in every place after them (R167). -/
def padTo (n : Nat) (bytes : List Byte) : List Byte := (bytes ++ List.replicate n 0).take n

/-- The reply part of a frame kind: its status, the fields it carries, and 0x00 up to its fixed length (R167). -/
def answer (k : FrameKind) (st : ReplyStatus) (fields : List Byte := []) : List Byte :=
  padTo k.replyLen (st.code :: fields)

end Sys2Proof.Machine
end

