-- ==== Sys2Proof/Machine/ResetValues.lean ====
section
/-! DEFINITION. What each block holds after a pin reset. -/

namespace Sys2Proof.Machine

/-- No member in any set (R145). -/
def NoticeSets.empty : NoticeSets := ⟨0, 0, 0, 0⟩

/-- RESULT, POSTED_FAULT, HOLD_ENDED, SEGMENT and SEM enabled (R142; it reads 0x37). -/
def resetMask : BitVec 7 := 0x37

/-- A port after pin reset, with its role and PRSTxN level (R50, R145, R163). -/
def PortState.pinReset (role : Role) (inReset : Bool) : PortState where
  role := role
  inReset := inReset
  frame := none
  framingFlag := false
  framingCount := 0
  mask := resetMask
  reqs := []
  results := []
  postedFault := none
  holdEnds := []
  lostEnds := 0
  notices := .empty

/-- A route entry after pin reset (R34). -/
def RouteEntry.pinReset : RouteEntry where
  valid := false
  aliasAddr := 0x08
  key := ⟨0, 0x08⟩
  rights := #v[.none, .none, .none]
  posted := false
  holdLimit := 10

/-- An arbiter after pin reset (R87). -/
def Arbiter.pinReset : Arbiter where
  mode := .priority
  ranking := #v[0, 1, 2, 3]
  quanta := #v[64, 64, 64, 64]
  deficits := #v[0, 0, 0, 0]
  current := 0

/-- All seven counts at 0. -/
def Stats.zero : Stats := ⟨0, 0, 0, 0, 0, 0, 0⟩

/-- An engine after pin reset: CHECKING with both windows starting (R111). -/
def Engine.pinReset : Engine where
  state := .checking 0 0
  disablePending := false
  tries := 0
  faultReason := .none
  faultCount := 0
  stats := .zero
  speed := .khz100
  limit := 25

/-- A cleared result for a read length (R123, R130). -/
def PollResult.cleared (readLen : Nat) : PollResult where
  status := none
  sequence := 0
  valid := false
  data := List.replicate readLen 0
  age := 65535

/-- A poll entry after pin reset (R130). -/
def PollEntry.pinReset : PollEntry where
  config := ⟨0, 0, 0, 0, 1, 1000, 0⟩
  state := .off
  countdown := 1000
  mark := .none
  discard := false
  overrun := 0
  result := .cleared 1

/-- A free semaphore (R153). -/
def Semaphore.free : Semaphore := ⟨none, 0⟩

/-- The roles State.reset takes ROLE0, ROLE1 and ROLE2 to have been strapped to: SUPERVISOR, MEMBER, SUPERVISOR.
DESIGN CHOICE, unsafe: the manual gives no strapping; these are those of the example in section 9.5 (log 4). -/
def resetRoles : Vector Role 3 := #v[.supervisor, .member, .supervisor]

end Sys2Proof.Machine
end

