-- ==== Sys2Proof/Machine/State.lean ====
section
/-! DEFINITION. The state of the hub and its value after a pin reset. -/

namespace Sys2Proof.Machine

/-- The whole hub. `held` tells that RESETN is low (R163). `due` are the due lists of the four segments, oldest first
(R117). `tenth` counts the millisecond marks since the last ten-millisecond mark (R63). `freeCount` is the model's own
counter for free values, `pending` the queue of commands waiting to be taken. -/
structure State where
  held : Bool
  ports : Vector PortState 3
  routes : Vector RouteEntry 32
  holds : Vector (Option HoldEntry) 8
  arbiters : Vector Arbiter 4
  engines : Vector Engine 4
  due : Vector (List PollIdx) 4
  polls : Vector PollEntry 16
  sems : Vector Semaphore 8
  tenth : Nat
  freeCount : Nat
  pending : List Instr
  deriving DecidableEq, Repr

/-- Why a step can stop the machine: never. The manual names no event that stops the hub: a refused frame is answered
with a status, and an event whose condition does not hold does nothing (log 2). -/
inductive Fault where
  deriving DecidableEq, Repr

/-- Why a command can be refused. -/
inductive Refusal where
  /-- The command has no meaning in the model yet. Raised by an arm of exec alone; safe. No arm raises it. -/
  | notModelled (mnemonic : String)
  deriving DecidableEq, Repr

/-- The hub after a pin reset with the given roles and PRSTxN levels, RESETN being high (R163). The first millisecond
mark and the first ten-millisecond mark are counted from here (log 22). -/
def State.pinReset (ports : Vector PortState 3) (freeCount : Nat) (pending : List Instr) : State where
  held := false
  ports := ports
  routes := Vector.replicate 32 .pinReset
  holds := Vector.replicate 8 none
  arbiters := Vector.replicate 4 .pinReset
  engines := Vector.replicate 4 .pinReset
  due := Vector.replicate 4 []
  polls := Vector.replicate 16 .pinReset
  sems := Vector.replicate 8 .free
  tenth := 0
  freeCount := freeCount
  pending := pending

/-- The machine right after reset: roles as `resetRoles` has them (log 4), every PRSTxN high (log 5). -/
def State.reset : State :=
  .pinReset #v[.pinReset resetRoles[0] false, .pinReset resetRoles[1] false, .pinReset resetRoles[2] false] 0 []

end Sys2Proof.Machine
end

