-- ==== Sys2Proof/Machine/Ops.lean ====
section
/-! DEFINITION. The operations the commands share: access to the blocks, the completion of requests and polls, holds
handed over, segments going offline, cuts and port resets, and the taking of a frame. -/

namespace Sys2Proof.Machine

/-! ### Numbers and lists -/

/-- A saturating increase: it stops at its maximum (00_scope.md section 5). -/
def satInc (max n : Nat) : Nat := min (n + 1) max

def allPorts : List Port := [0, 1, 2]
def allSegs : List Seg := [0, 1, 2, 3]
def allHolds : List HoldIdx := [0, 1, 2, 3, 4, 5, 6, 7]
def allSems : List SemIdx := [0, 1, 2, 3, 4, 5, 6, 7]
def allPolls : List PollIdx := [0, 1, 2, 3, 4, 5, 6, 7, 8, 9, 10, 11, 12, 13, 14, 15]

/-! ### Access to the blocks -/

namespace State

def port (s : State) (p : Port) : PortState := s.ports[p]
def engine (s : State) (g : Seg) : Engine := s.engines[g]
def arbiter (s : State) (g : Seg) : Arbiter := s.arbiters[g]
def route (s : State) (i : RouteIdx) : RouteEntry := s.routes[i]
def hold (s : State) (i : HoldIdx) : Option HoldEntry := s.holds[i]
def poll (s : State) (n : PollIdx) : PollEntry := s.polls[n]
def sem (s : State) (n : SemIdx) : Semaphore := s.sems[n]
def dueOf (s : State) (g : Seg) : List PollIdx := s.due[g]

def setPort (s : State) (p : Port) (x : PortState) : State := { s with ports := s.ports.set p x }
def setEngine (s : State) (g : Seg) (x : Engine) : State := { s with engines := s.engines.set g x }
def setArbiter (s : State) (g : Seg) (x : Arbiter) : State := { s with arbiters := s.arbiters.set g x }
def setRoute (s : State) (i : RouteIdx) (x : RouteEntry) : State := { s with routes := s.routes.set i x }
def setHold (s : State) (i : HoldIdx) (x : Option HoldEntry) : State := { s with holds := s.holds.set i x }
def setPoll (s : State) (n : PollIdx) (x : PollEntry) : State := { s with polls := s.polls.set n x }
def setSem (s : State) (n : SemIdx) (x : Semaphore) : State := { s with sems := s.sems.set n x }
def setDue (s : State) (g : Seg) (x : List PollIdx) : State := { s with due := s.due.set g x }

def modifyPort (s : State) (p : Port) (f : PortState → PortState) : State := s.setPort p (f (s.port p))

/-- The same change in every port. -/
def mapPorts (s : State) (f : Port → PortState → PortState) : State :=
  { s with ports := Vector.ofFn fun p => f p s.ports[p] }

/-- The same change in every hold entry. -/
def mapHolds (s : State) (f : Option HoldEntry → Option HoldEntry) : State :=
  { s with holds := Vector.ofFn fun i => f s.holds[i] }

/-- A change in every engine. -/
def mapEngines (s : State) (f : Seg → Engine → Engine) : State :=
  { s with engines := Vector.ofFn fun g => f g s.engines[g] }

/-- The same change in every arbiter. -/
def mapArbiters (s : State) (f : Arbiter → Arbiter) : State :=
  { s with arbiters := Vector.ofFn fun g => f s.arbiters[g] }

/-- The same change in every poll entry. -/
def mapPolls (s : State) (f : PollEntry → PollEntry) : State :=
  { s with polls := Vector.ofFn fun n => f s.polls[n] }

/-- The same change in every due list. -/
def mapDue (s : State) (f : List PollIdx → List PollIdx) : State :=
  { s with due := Vector.ofFn fun g => f s.due[g] }

/-- A free value has been drawn. -/
def draw (s : State) : State := { s with freeCount := s.freeCount + 1 }

/-- Port `p` takes frames: RESETN and PRSTxN are high (R159, R163). -/
def running (s : State) (p : Port) : Bool := !s.held && !(s.port p).inReset

/-- The port owns semaphore 0, the configuration claim (R151). -/
def hasClaim (s : State) (p : Port) : Bool := (s.sem 0).owner == some p

end State

/-! ### Notice sets (R139) -/

namespace NoticeSets

def union (a b : NoticeSets) : NoticeSets := ⟨a.poll ||| b.poll, a.seg ||| b.seg, a.freed ||| b.freed, a.lost ||| b.lost⟩

/-- The members of `a` that are not in `b`. -/
def diff (a b : NoticeSets) : NoticeSets :=
  ⟨a.poll &&& ~~~b.poll, a.seg &&& ~~~b.seg, a.freed &&& ~~~b.freed, a.lost &&& ~~~b.lost⟩

def ofPoll (n : PollIdx) : NoticeSets := { NoticeSets.empty with poll := BitVec.twoPow 16 n.val }
def ofSeg (g : Seg) : NoticeSets := { NoticeSets.empty with seg := BitVec.twoPow 4 g.val }
def ofFreed (n : SemIdx) : NoticeSets := { NoticeSets.empty with freed := BitVec.twoPow 8 n.val }
def ofLost (n : SemIdx) : NoticeSets := { NoticeSets.empty with lost := BitVec.twoPow 8 n.val }

end NoticeSets

/-! ### What is added to a port's result store

An addition meant for a port that is IN_RESET is not made (R139, R145, R159). -/

/-- A NOTICES frame in progress remembers the members added since its snapshot (R140). -/
def Snapshot.noteAdded (g : NoticeSets) : Snapshot → Snapshot
  | .notices reported again => .notices reported (again.union g)
  | x => x

/-- A POSTED FAULT frame in progress remembers that a failure was entered since its snapshot (R136). -/
def Snapshot.noteFault : Snapshot → Snapshot
  | .postedFault _ => .postedFault true
  | x => x

/-- A HOLD ENDS frame in progress counts the ends lost since its snapshot (R138). -/
def Snapshot.noteLost : Snapshot → Snapshot
  | .holdEnds count lost => .holdEnds count (satInc 255 lost)
  | x => x

namespace PortState

/-- A change of what the frame in progress still does. -/
def noteFrame (ps : PortState) (f : Snapshot → Snapshot) : PortState :=
  { ps with frame := ps.frame.map fun fr => { fr with snapshot := f fr.snapshot } }

/-- Members join the notice sets (R139). -/
def addNotices (ps : PortState) (g : NoticeSets) : PortState :=
  if ps.inReset then ps else { ps.noteFrame (·.noteAdded g) with notices := ps.notices.union g }

/-- A record joins the tail of the result queue (R131). -/
def pushResult (ps : PortState) (r : Result) : PortState :=
  if ps.inReset then ps else { ps with results := ps.results ++ [r] }

/-- A failed posted write fills the posted-fault record, or counts as a further failure (R135). -/
def enterFault (ps : PortState) (r : Request) (st : Status) (ack : Nat) : PortState :=
  if ps.inReset then ps else
    { ps.noteFrame Snapshot.noteFault with
      postedFault := match ps.postedFault with
        | none => some ⟨r.tag, r.route, r.key, st, ack, 0⟩
        | some f => some { f with further := satInc 255 f.further } }

/-- A hold-end record joins the list, or with 4 records in it counts as lost (R137). -/
def addHoldEnd (ps : PortState) (e : HoldEnd) : PortState :=
  if ps.inReset then ps
  else if ps.holdEnds.length < 4 then { ps with holdEnds := ps.holdEnds ++ [e] }
  else { ps.noteFrame Snapshot.noteLost with lostEnds := satInc 255 ps.lostEnds }

/-- A framing error: the flag is set and the count increases, stopping at 255 (R141, R156). -/
def framingError (ps : PortState) : PortState :=
  { ps with framingFlag := true, framingCount := satInc 255 ps.framingCount }

end PortState

/-! ### The completion of requests (R17, R43) -/

/-- How a request ended. -/
structure Ending where
  status : Status
  ackCount : Nat := 0
  readData : List Byte := []
  holdRemaining : Option Nat := none

/-- The result record of a request that ended so (R132). -/
def Ending.record (e : Ending) (r : Request) : Result :=
  ⟨r.tag, r.kind, e.status, e.ackCount, e.readData, e.holdRemaining⟩

namespace PortState

/-- Where the outcome of a completed request goes (R17): a non-posted request's to the result queue; a posted one's
nowhere on DONE and CANCELLED, else to the posted-fault record. -/
def deliver (ps : PortState) (r : Request) (e : Ending) : PortState :=
  if r.posted then
    if e.status = .done ∨ e.status = .cancelled then ps else ps.enterFault r e.status e.ackCount
  else ps.pushResult (e.record r)

/-- The open request of the port with a tag (R45). -/
def find (ps : PortState) (tag : Byte) : Option Request := ps.reqs.find? (fun r => r.tag == tag)

/-- A request leaves its lane and the admission order, and its outcome is delivered (R43). -/
def complete (ps : PortState) (r : Request) (e : Ending) : PortState :=
  { ps with reqs := ps.reqs.eraseP (fun x => x.tag == r.tag) }.deliver r e

/-- Every open request that `sel` picks completes, in admission order, in one event (R43). -/
def completeAll (ps : PortState) (sel : Request → Bool) (st : Status) : PortState :=
  (ps.reqs.filter sel).foldl (fun ps r => ps.deliver r { status := st })
    { ps with reqs := ps.reqs.filter (fun r => !sel r) }

/-- A request changes its state in place (R37). -/
def setReqState (ps : PortState) (tag : Byte) (st : ReqState) : PortState :=
  { ps with reqs := ps.reqs.map fun r => if r.tag == tag then { r with state := st } else r }

/-- The reservations of the port: one for each open non-posted request (R14). -/
def reservations (ps : PortState) : Nat := (ps.reqs.filter (·.reservation)).length

/-- A tag is in use by an open request or by a stored result (R8). -/
def tagInUse (ps : PortState) (tag : Byte) : Bool :=
  ps.reqs.any (fun r => r.tag == tag) || ps.results.any (fun r => r.tag == tag)

/-- A lane: the open requests of one segment in admission order (R36). -/
def lane (ps : PortState) (g : Seg) : List Request := ps.reqs.filter (fun r => r.key.seg == g)

/-- The head of a lane and the open requests admitted before it, from a lane store whose older part is `older`. -/
def headFrom (g : Seg) : List Request → List Request → Option (List Request × Request)
  | _, [] => none
  | older, r :: rest => if r.key.seg == g then some (older, r) else headFrom g (older ++ [r]) rest

/-- A request is fence-blocked by the older open requests of its port (R39). -/
def fenceBlocked (older : List Request) (r : Request) : Bool :=
  (r.fence && !older.isEmpty) || older.any (·.fence)

/-- The head of a lane, if it is QUEUED and not fence-blocked (R38, R41, R42). -/
def readyHead (ps : PortState) (g : Seg) : Option Request :=
  match headFrom g [] ps.reqs with
  | some (older, r) => if r.state = .queued ∧ fenceBlocked older r = false then some r else none
  | none => none

end PortState

/-- READ, WRITE, WRITE_READ and PROBE are bus requests (R2). -/
def Kind.usesBus : Kind → Bool
  | .read | .write | .writeRead | .probe => true
  | .hold | .release => false

/-- The transaction addresses the target with the write bit first: a PROBE, or anything that writes (R93). -/
def Work.writesFirst (w : Work) : Bool := !w.write.isEmpty || w.readLen == 0

/-- What a hand-over leaves of an entry: the first waiter holds with its own limit, or the entry is free (R57). -/
def HoldEntry.handedOver (e : HoldEntry) : Option HoldEntry :=
  match e.waiters with
  | w :: ws => some { e with holder := w.port, remaining := w.limit, waiters := ws }
  | [] => none

namespace State

/-- Port `p`'s request completes (R43). -/
def completeReq (s : State) (p : Port) (r : Request) (e : Ending) : State := s.modifyPort p (·.complete r e)

/-! ### The hold table -/

/-- The used entry that carries a key (R53). -/
def entryOf (s : State) (k : Key) : Option HoldIdx :=
  allHolds.find? fun i => match s.hold i with
    | some e => e.key == k
    | none => false

/-- The port that holds a key (R53). -/
def holderOf (s : State) (k : Key) : Option Port :=
  match s.entryOf k with
  | some i => (s.hold i).map (·.holder)
  | none => none

/-- The lowest-numbered free entry (R53). -/
def freeEntry (s : State) : Option HoldIdx := allHolds.find? fun i => (s.hold i).isNone

/-- The waiters of port `p` that `sel` picks by tag leave every entry; the others keep their order (R54). -/
def dropWaiters (s : State) (p : Port) (sel : Byte → Bool) : State :=
  s.mapHolds (·.map fun e => { e with waiters := e.waiters.filter fun w => !(w.port == p && sel w.tag) })

/-- A hand-over: the first waiter becomes the holder with its own limit and its HOLD completes HOLD_GRANTED, or with
no waiter the entry becomes free (R57). -/
def handOver (s : State) (i : HoldIdx) : State :=
  match s.hold i with
  | none => s
  | some e =>
    let s := s.setHold i e.handedOver
    match e.waiters with
    | [] => s
    | w :: _ =>
      match (s.port w.port).find w.tag with
      | some r => s.completeReq w.port r { status := .holdGranted, holdRemaining := some w.limit }
      | none => s

/-- The hold of entry `i` expires: a hold-end record EXPIRED for the holder and a hand-over (R64). -/
def expire (s : State) (i : HoldIdx) : State :=
  match s.hold i with
  | none => s
  | some e => (s.modifyPort e.holder (·.addHoldEnd ⟨e.key, .expired⟩)).handOver i

/-- Remaining decreases by 1 in a used entry; at 0 the hold expires in the same event (R63, R64). A hold handed over
before its decrease is taken is decreased at that mark, as R63 says, and with a limit of 1 it expires there; R65 says of
a hand-over by RELEASE that the fresh hold does not expire at this mark. To follow R63 is the model's choice (log 28). -/
def decreaseHold (s : State) (i : HoldIdx) : State :=
  match s.hold i with
  | none => s
  | some e => if 1 < e.remaining then s.setHold i (some { e with remaining := e.remaining - 1 }) else s.expire i

/-! ### Polls -/

/-- The key of a poll entry: the segment and target of its route entry (R22). -/
def pollKey (s : State) (n : PollIdx) : Key := (s.route (s.poll n).config.route).key

/-- A poll instance leaves whichever due list it is in (R117). -/
def undue (s : State) (n : PollIdx) : State := s.mapDue (·.filter (· ≠ n))

/-- The data of a DONE differs from the cached data, or nothing is cached (R121). -/
def pollChanged (r : PollResult) (data : List Byte) : Bool := !r.valid || r.data != data

/-- A result group after a completion (R120 steps 3 to 5). -/
def pollStore (r : PollResult) (st : Status) (data : List Byte) : PollResult :=
  if st = .done then ⟨some .done, r.sequence + 1, true, data, 0⟩
  else { r with status := some st, sequence := r.sequence + 1 }

/-- Each port of a notify set is told of a changed poll entry (R121). -/
def tellPoll (s : State) (n : PollIdx) (notify : BitVec 3) : State :=
  s.mapPorts fun p ps => if notify.getLsbD p.val then ps.addNotices (.ofPoll n) else ps

/-- A poll instance completes (R120); a changed DONE tells the notify set (R121). -/
def completePoll (s : State) (n : PollIdx) (st : Status) (data : List Byte) : State :=
  let e := s.poll n
  if e.discard then s.setPoll n { e with mark := .none, discard := false }
  else
    let s := if st = .done && pollChanged e.result data then s.tellPoll n e.config.notify else s
    s.setPoll n { e with mark := .none, result := pollStore e.result st data }

/-! ### Segments going offline (R102) -/

/-- Every hold on the segment ends, in ascending entry number, with a hold-end record for its holder (R67). The
waiting HOLDs complete with the segment's queued requests in `drainLanes`. -/
def endHolds (s : State) (g : Seg) : State :=
  allHolds.foldl (fun s i =>
    match s.hold i with
    | some e => if e.key.seg == g then
        (s.modifyPort e.holder (·.addHoldEnd ⟨e.key, .segmentOffline⟩)).setHold i none
      else s
    | none => s) s

/-- Every QUEUED and every WAITING_HOLD request of every port on the segment completes SEGMENT_OFFLINE, each port's in
its admission order (R52, R67). -/
def drainLanes (s : State) (g : Seg) : State :=
  s.mapPorts fun _ ps => ps.completeAll (fun r => r.key.seg == g && r.state != .inFlight) .segmentOffline

/-- Every instance in the segment's due list completes SEGMENT_OFFLINE and leaves the list (R102, R117). -/
def drainDue (s : State) (g : Seg) : State :=
  ((s.dueOf g).foldl (fun s n => s.completePoll n .segmentOffline []) s).setDue g []

/-- The segment joins every port's segment notice set (R102, R105). -/
def segmentNotice (s : State) (g : Seg) : State := s.mapPorts fun _ ps => ps.addNotices (.ofSeg g)

/-- The effects of going offline on the other blocks (R102). -/
def goOffline (s : State) (g : Seg) : State := (((s.endHolds g).drainLanes g).drainDue g).segmentNotice g

/-! ### Engine transitions -/

/-- Entry into DISABLED: the disable-pending flag is cleared and the segment goes offline (R103, R104). -/
def enterDisabled (s : State) (g : Seg) : State :=
  (s.setEngine g { s.engine g with state := .disabled, disablePending := false }).goOffline g

/-- Entry into FAULTED: fault record, statistic, and the segment goes offline (R101). -/
def enterFaulted (s : State) (g : Seg) (reason : FaultReason) : State :=
  let e := s.engine g
  (s.setEngine g { e with
    state := .faulted
    faultReason := reason
    faultCount := satInc 255 e.faultCount
    stats := { e.stats with faults := satInc 65535 e.stats.faults } }).goOffline g

/-- A reason for recovery: RECOVERING with one more try, or FAULTED with NOT_FREE when two are used (R99). -/
def tryRecovery (s : State) (g : Seg) : State :=
  let e := s.engine g
  if e.tries < 2 then
    s.setEngine g { e with
      state := .recovering .waitScl 0 false
      tries := e.tries + 1
      stats := { e.stats with recoveries := satInc 65535 e.stats.recoveries } }
  else s.enterFaulted g .notFree

/-- A change of the engine's state alone. -/
def setEngineState (s : State) (g : Seg) (st : EngineState) : State :=
  s.setEngine g { s.engine g with state := st }

/-- Entry into CHECKING: both windows start (R98). -/
def enterChecking (s : State) (g : Seg) : State := s.setEngineState g (.checking 0 0)

/-- Where the engine goes after it has left its transaction or its pulse: `next`, or DISABLED when a disable is
pending (R103, R104, R109). -/
def leaveTo (s : State) (g : Seg) (next : EngineState) : State :=
  if (s.engine g).disablePending then s.enterDisabled g else s.setEngineState g next

/-- A change of the statistics of a segment (R108). -/
def count (s : State) (g : Seg) (f : Stats → Stats) : State :=
  s.setEngine g { s.engine g with stats := f (s.engine g).stats }

/-- The segment is online: not FAULTED, not DISABLED, no disable pending (R12, R88). -/
def online (s : State) (g : Seg) : Bool :=
  match (s.engine g).state with
  | .faulted | .disabled => false
  | _ => !(s.engine g).disablePending

/-- The segment is offline: FAULTED or DISABLED (R88, R116). -/
def offline (s : State) (g : Seg) : Bool :=
  match (s.engine g).state with
  | .faulted | .disabled => true
  | _ => false

/-- The request of a port that is IN_FLIGHT on a segment. -/
def inFlightReq (s : State) (p : Port) (g : Seg) : Option Request :=
  (s.port p).reqs.find? fun r => r.state = .inFlight && r.key.seg == g

/-- The outcome of a transaction is handed to its owner: the port's lane store or the poll engine; to nobody when the
transaction was cut (R94, R109). -/
def handOutcome (s : State) (g : Seg) (c : Carrier) (e : Ending) : State :=
  match c with
  | .port p =>
    match s.inFlightReq p g with
    | some r => s.completeReq p r e
    | none => s
  | .poll n => s.completePoll n e.status e.readData
  | .cut _ => s

end State

/-! ### Where a transaction stands, and its cut (R93, R109) -/

/-- How many elements the bus of segment `g` has finished from the value `since` of `State.freeCount` to the value
`now`: a free number that grows with `now` (log 7). -/
def busMoves (g : Seg) (since now : Nat) : Nat :=
  ((List.range (now + 1 - since)).map fun i => Config.freeMoves g (since + i)).sum

/-- The elements not yet finished, the first being the one the transaction stands in; it stays in its last until the
transaction ends. -/
def Transaction.standing (t : Transaction) (g : Seg) (now : Nat) : List BusElement :=
  t.ahead.drop (min (busMoves g t.since now) (t.ahead.length - 1))

/-- What the engine finishes of the elements not yet finished when it cuts: up to the end of the byte in progress, or of
the address byte after a start or repeated start; a byte being read is not acknowledged; then the stop (R109). -/
def cutShort : List BusElement → List BusElement
  | .start :: .address b :: _ => [.start, .address b, .stop]
  | .restart :: .address b :: _ => [.restart, .address b, .stop]
  | .address b :: _ => [.address b, .stop]
  | .write b :: _ => [.write b, .stop]
  | .read _ :: _ => [.read false, .stop]
  | _ => [.stop]

/-- The cut of the transaction on segment `g`: the occupant becomes none at once, and what is left of it is cut short
(R109). Cutting one that is being cut changes only where it ends (R112). -/
def Transaction.cut (t : Transaction) (g : Seg) (now : Nat) (c : CutCause) : Transaction :=
  { t with carrier := .cut c, ahead := cutShort (t.standing g now), since := now + 1 }

/-- A port reset cuts the transaction of segment `g` whose occupant is the port (R49, R110). -/
def Engine.cutPort (p : Port) (now : Nat) (g : Seg) (e : Engine) : Engine :=
  match e.state with
  | .active t => if t.carrier = .port p then { e with state := .active (t.cut g now .portReset) } else e
  | _ => e

/-! ### Holds handed over together (R68) -/

/-- The port's HOLDs that one event grants complete HOLD_GRANTED, in the port's admission order (R43, R131). -/
def PortState.grantAll (ps : PortState) (served : List Waiter) : PortState :=
  ps.reqs.foldl (fun ps r =>
    match served.find? fun w => w.tag == r.tag with
    | some w => ps.complete r { status := .holdGranted, holdRemaining := some w.limit }
    | none => ps) ps

namespace State

/-! ### Semaphores -/

/-- A semaphore is freed: no owner, its interest set told and emptied (R148). -/
def freeSem (s : State) (n : SemIdx) : State :=
  let told := (s.sem n).interest
  (s.setSem n .free).mapPorts fun p ps => if told.getLsbD p.val then ps.addNotices (.ofFreed n) else ps

/-! ### Port reset (R160) -/

/-- What a port reset leaves of a port's own state: role, PRSTxN level and frame are not part of it. -/
def clearedPort (ps : PortState) : PortState :=
  { PortState.pinReset ps.role ps.inReset with frame := ps.frame }

/-- The port leaves every interest set (R152 step 1). -/
def dropInterest (s : State) (p : Port) : State :=
  { s with sems := Vector.ofFn fun n =>
      { s.sems[n] with interest := s.sems[n].interest &&& ~~~(BitVec.twoPow 3 p.val) } }

/-- The semaphores the port owns are freed, in ascending number (R152 step 2). -/
def freeOwned (s : State) (p : Port) : State :=
  allSems.foldl (fun s n => if (s.sem n).owner = some p then s.freeSem n else s) s

/-- The first waiters of the port's holds, in ascending entry number (R68 step 2). -/
def served (s : State) (p : Port) : List Waiter :=
  allHolds.filterMap fun i =>
    match s.hold i with
    | some e => if e.holder = p then e.waiters.head? else none
    | none => none

/-- The holds of the port are handed over in one event (R68 step 2). The entries do not depend on one another; the
records of a port that is served on several join its queue in its admission order (R131). -/
def handOverAll (s : State) (p : Port) : State :=
  (s.mapHolds fun h =>
    match h with
    | some e => if e.holder = p then e.handedOver else some e
    | none => none).mapPorts fun q ps => ps.grantAll ((s.served p).filter fun w => w.port = q)

/-- The port-reset effects, as one event (R160). The port's own collections are emptied with its requests; it leaves
the waiters and the interest sets before anything is handed over or freed, so nothing is added to it. -/
def resetPort (s : State) (p : Port) : State :=
  let s := s.modifyPort p clearedPort
  let s := (s.mapEngines (Engine.cutPort p s.freeCount)).draw
  let s := s.dropWaiters p (fun _ => true)
  let s := s.handOverAll p
  let s := s.mapArbiters fun a => { a with deficits := a.deficits.set p.val 0 (by omega) }
  (s.dropInterest p).freeOwned p

end State

/-! ### Taking a frame (R155) -/

/-- What a block answers to a frame: the state after it, the reply part, and what the frame does at its normal end. -/
structure Answer where
  state : State
  reply : List Byte
  snapshot : Snapshot := .none

/-- A frame is taken at the end of its request part: the block acts once and the reply is ready (R155). On a port that
is IN_RESET, and while RESETN is low, no frame is taken (R159, R163). A frame that was in progress on the port has
ended before this one began (log 3). -/
def takeFrame (p : Port) (k : Option FrameKind) (requestLen : Nat) (act : State → Answer) (s : State) : State :=
  if s.running p then
    let a := act (s.modifyPort p fun ps => { ps with frame := none })
    a.state.modifyPort p fun ps => { ps with frame := some ⟨k, requestLen, a.reply, a.snapshot⟩ }
  else s

/-- A frame of a kind with a fixed request length. -/
def frameOf (p : Port) (k : FrameKind) (act : State → Answer) (s : State) : State :=
  takeFrame p (some k) k.requestLen act s

/-- A frame answered without an effect. -/
def refuse (s : State) (k : FrameKind) (st : ReplyStatus) : Answer := ⟨s, answer k st, .none⟩

/-- A claim-requiring frame: NOT_CLAIMED unless the port owns semaphore 0 (R151). -/
def withClaim (p : Port) (k : FrameKind) (s : State) (act : Answer) : Answer :=
  if s.hasClaim p then act else refuse s k .notClaimed

/-- A frame that names something by an index: BAD_INDEX above its range (R166). -/
def withIndex (n : Nat) (b : Byte) (k : FrameKind) (s : State) (act : Fin n → Answer) : Answer :=
  match readIdx n b with
  | some i => act i
  | none => refuse s k .badIndex

/-- The normal end of a frame of kind `k` on port `p`: the frame is over, and `act` does what its snapshot asks
(R158). Without such a frame in progress on a RUNNING port there is no such event (log 2, 3). -/
def frameEnd (p : Port) (k : FrameKind) (act : Snapshot → State → State) (s : State) : State :=
  match (s.port p).frame with
  | some f =>
    if s.running p ∧ f.kind = some k then
      act f.snapshot (s.modifyPort p fun ps => { ps with frame := none })
    else s
  | none => s

/-- An event of the hub itself: it does not happen while RESETN is low (R163). -/
def hubEvent (act : State → State) (s : State) : State := if s.held then s else act s

end Sys2Proof.Machine
end

