-- ==== Sys2Proof/Machine/Engines.lean ====
section
/-! DEFINITION. The events of the segment engines: the ends of transactions, checking and recovery (chapter 6). -/

namespace Sys2Proof.Machine

/-! ### What the target answered (R94) -/

namespace Work

/-- The write bytes acknowledged so far, from the acknowledge bits read in order: the first answers the address byte,
those after it the write bytes, up to the first not-acknowledge (R94). -/
def ackedWrites (w : Work) : List Bool → Nat
  | true :: rest => ((rest.take w.write.length).takeWhile (· == true)).length
  | _ => 0

/-- The bytes read, read-length of them; a byte no target sent reads 0xFF, since a line nothing pulls low is high
(section 6.2, log 8). -/
def readBytes (w : Work) (data : List Byte) : List Byte := (data ++ List.replicate w.readLen 0xFF).take w.readLen

/-- The address byte is acknowledged. A bit nothing pulls low is a not-acknowledge (R90, log 8). -/
def acked (acks : List Bool) (i : Nat) : Bool := acks.getD i false

/-- How a transaction ends from the acknowledge bits it reads (R94). -/
def ending (w : Work) (acks : List Bool) (data : List Byte) : Ending :=
  let n := w.write.length
  let done : Ending := { status := .done, ackCount := n, readData := w.readBytes data }
  if !acked acks 0 then { status := .addrNack }
  else if w.ackedWrites acks < n then { status := .dataNack, ackCount := w.ackedWrites acks }
  else if w.writesFirst && w.readLen != 0 && !acked acks (n + 1) then { status := .addrNack, ackCount := n }
  else done

end Work

/-- Whether a transaction is being cut (R109). -/
def Carrier.isCut : Carrier → Bool
  | .cut _ => true
  | .port _ | .poll _ => false

namespace State

/-- The statistic a transaction's end counts in (R108). -/
def countEnd (st : Status) (x : Stats) : Stats :=
  if st = .addrNack then { x with addrNacks := satInc 65535 x.addrNacks }
  else if st = .dataNack then { x with dataNacks := satInc 65535 x.dataNacks }
  else x

/-- Recovery tries return to 0 (R99). -/
def clearTries (s : State) (g : Seg) : State := s.setEngine g { s.engine g with tries := 0 }

/-- The end of a transaction when its stop has been given (R94): the outcome is handed over and counted, and the engine
goes to IDLE, or to DISABLED with a disable pending (R104). -/
def endTransaction (s : State) (g : Seg) (t : Transaction) (e : Ending) : State :=
  (((s.count g (countEnd e.status)).clearTries g).handOutcome g t.carrier e).leaveTo g .idle

/-- LINE_CONFLICT ends a transaction at once (R95). -/
def conflict (s : State) (g : Seg) (t : Transaction) (acks : List Bool) : State :=
  ((s.count g fun x => { x with lineConflicts := satInc 65535 x.lineConflicts }).handOutcome g t.carrier
    { status := .lineConflict, ackCount := t.work.ackedWrites acks }).leaveTo g (.checking 0 0)

/-- The transaction limit expires: the outcome is handed over before the engine leaves ACTIVE, for DISABLED with a
disable pending, else for RECOVERING or FAULTED (R96). -/
def expireLimit (s : State) (g : Seg) (t : Transaction) (acks : List Bool) : State :=
  let s := (s.count g fun x => { x with timeouts := satInc 65535 x.timeouts }).handOutcome g t.carrier
    { status := .timeout, ackCount := t.work.ackedWrites acks }
  if (s.engine g).disablePending then s.enterDisabled g else s.tryRecovery g

/-- Where a cut ends (R109). -/
def cutTarget : CutCause → EngineState
  | .portReset => .idle
  | .hubReset => .checking 0 0

end State

/-- TRANSACTION END with the acknowledge bits and bytes of the target; a transaction being cut ends by CUT END (R94,
R109). -/
def execTransactionEnd (g : Seg) (acks : List Bool) (data : List Byte) (s : State) :
    Host.Outcome State Fault Refusal :=
  .next (hubEvent (fun s =>
    match (s.engine g).state with
    | .active t => if t.carrier.isCut then s else s.endTransaction g t (t.work.ending acks data)
    | _ => s) s)

/-- LINE CONFLICT (R95, R109). -/
def execLineConflict (g : Seg) (acks : List Bool) (s : State) : Host.Outcome State Fault Refusal :=
  .next (hubEvent (fun s =>
    match (s.engine g).state with
    | .active t => s.conflict g t acks
    | _ => s) s)

/-- TIMEOUT (R96, R109). -/
def execTimeout (g : Seg) (acks : List Bool) (s : State) : Host.Outcome State Fault Refusal :=
  .next (hubEvent (fun s =>
    match (s.engine g).state with
    | .active t => s.expireLimit g t acks
    | _ => s) s)

/-- CUT END: the stop after a cut has been given (R109). -/
def execCutEnd (g : Seg) (s : State) : Host.Outcome State Fault Refusal :=
  .next (hubEvent (fun s =>
    match (s.engine g).state with
    | .active t =>
      match t.carrier with
      | .cut c => s.leaveTo g (State.cutTarget c)
      | .port _ | .poll _ => s
    | _ => s) s)

/-! ### Checking (R97, R98) -/

/-- LINE LOW IN IDLE: the engine enters CHECKING (R97). -/
def execLineLowInIdle (g : Seg) (s : State) : Host.Outcome State Fault Refusal :=
  .next (hubEvent (fun s => if (s.engine g).state = .idle then s.enterChecking g else s) s)

/-- FREE WINDOW COMPLETE: the engine enters IDLE, recovery tries as they stand (R98, R99). -/
def execFreeWindowComplete (g : Seg) (s : State) : Host.Outcome State Fault Refusal :=
  .next (hubEvent (fun s =>
    match (s.engine g).state with
    | .checking _ _ => s.setEngineState g .idle
    | _ => s) s)

/-- FREE WINDOW RESTART: a low on either line starts the free window again (R98). -/
def execFreeWindowRestart (g : Seg) (s : State) : Host.Outcome State Fault Refusal :=
  .next (hubEvent (fun s =>
    match (s.engine g).state with
    | .checking _ limit => s.setEngineState g (.checking 0 limit)
    | _ => s) s)

/-- LIMIT WINDOW END without a free bus (R98). -/
def execLimitWindowEnd (g : Seg) (s : State) : Host.Outcome State Fault Refusal :=
  .next (hubEvent (fun s =>
    match (s.engine g).state with
    | .checking _ _ => s.tryRecovery g
    | _ => s) s)

/-! ### Recovery (R100) -/

/-- RECOVERY SCL HIGH: the first pulse when SDA is low, the stop when it is high (R100). -/
def execRecoverySclHigh (g : Seg) (sdaHigh : Bool) (s : State) : Host.Outcome State Fault Refusal :=
  .next (hubEvent (fun s =>
    match (s.engine g).state with
    | .recovering .waitScl _ h => s.setEngineState g (.recovering (if sdaHigh then .stop else .pulse 1) 0 h)
    | _ => s) s)

/-- RECOVERY SCL TIMEOUT: SCL still low at the end of a wait faults the segment with SCL_STUCK; with a disable pending
the engine enters DISABLED and the fault is not reached (R100, R103, log 10). -/
def execRecoverySclTimeout (g : Seg) (s : State) : Host.Outcome State Fault Refusal :=
  .next (hubEvent (fun s =>
    match (s.engine g).state with
    | .recovering _ _ _ => if (s.engine g).disablePending then s.enterDisabled g else s.enterFaulted g .sclStuck
    | _ => s) s)

/-- What follows a recovery pulse with no disable pending (R100), or with a HUB RESET taken during it (R112). -/
def State.afterPulse (s : State) (g : Seg) (n : Nat) (hubReset sdaHigh : Bool) : State :=
  if hubReset then s.enterChecking g
  else if sdaHigh then s.setEngineState g (.recovering .stop 0 false)
  else if n < 9 then s.setEngineState g (.recovering (.pulse (n + 1)) 0 false)
  else s.enterFaulted g .sdaStuck

/-- RECOVERY PULSE END (R100, R103, R112). -/
def execRecoveryPulseEnd (g : Seg) (sdaHigh : Bool) (s : State) : Host.Outcome State Fault Refusal :=
  .next (hubEvent (fun s =>
    match (s.engine g).state with
    | .recovering (.pulse n) _ h =>
      if (s.engine g).disablePending then s.enterDisabled g else s.afterPulse g n h sdaHigh
    | _ => s) s)

/-- RECOVERY STOP END: CHECKING, or DISABLED with a disable pending (R100, R103, R112). -/
def execRecoveryStopEnd (g : Seg) (s : State) : Host.Outcome State Fault Refusal :=
  .next (hubEvent (fun s =>
    match (s.engine g).state with
    | .recovering .stop _ _ => s.leaveTo g (.checking 0 0)
    | _ => s) s)

end Sys2Proof.Machine
end

