-- ==== Sys2Proof/Machine/Holds.lean ====
section
/-! DEFINITION. The settlement of HOLD and RELEASE requests, and the expiry of holds (chapter 4). -/

namespace Sys2Proof.Machine

namespace State

/-- The HOLD that is settleable at the head of port `p`'s lane (R42). -/
def settleable (s : State) (p : Port) (g : Seg) (k : Kind) : Option Request :=
  match (s.port p).readyHead g with
  | some r => if r.kind = k then some r else none
  | none => none

/-- A HOLD settles against the hold table as it stands (R55). -/
def settleHold (s : State) (p : Port) (r : Request) : State :=
  let limit := r.holdLimit.getD 1
  match s.entryOf r.key with
  | some i =>
    match s.hold i with
    | some e =>
      if e.holder = p then s.completeReq p r { status := .alreadyHolding }
      else (s.setHold i (some { e with waiters := e.waiters ++ [⟨p, r.tag, limit⟩] })).modifyPort p
        (·.setReqState r.tag .waitingHold)
    | none => s
  | none =>
    match s.freeEntry with
    | some i =>
      (s.setHold i (some ⟨r.key, p, limit, []⟩)).completeReq p r { status := .holdGranted, holdRemaining := some limit }
    | none => s.completeReq p r { status := .holdTableFull }

/-- A RELEASE settles: the holder's hold is handed over, and any other port's RELEASE finds it is not the holder
(R56). -/
def settleRelease (s : State) (p : Port) (r : Request) : State :=
  match s.entryOf r.key with
  | some i =>
    if (s.hold i).map (·.holder) = some p then (s.handOver i).completeReq p r { status := .released }
    else s.completeReq p r { status := .notHolder }
  | none => s.completeReq p r { status := .notHolder }

end State

/-- HOLD SETTLEMENT of the head of port `p`'s lane for segment `g` (R55). -/
def execHoldSettlement (p : Port) (g : Seg) (s : State) : Host.Outcome State Fault Refusal :=
  .next (hubEvent (fun s =>
    match s.settleable p g .hold with
    | some r => s.settleHold p r
    | none => s) s)

/-- RELEASE SETTLEMENT of the head of port `p`'s lane for segment `g` (R56). -/
def execReleaseSettlement (p : Port) (g : Seg) (s : State) : Host.Outcome State Fault Refusal :=
  .next (hubEvent (fun s =>
    match s.settleable p g .release with
    | some r => s.settleRelease p r
    | none => s) s)

/-- HOLD DECREASE: at a ten-millisecond mark remaining decreases by 1 in a used entry; at 0 the hold expires in the
same event (R63, R64, log 12). -/
def execHoldDecrease (i : HoldIdx) (s : State) : Host.Outcome State Fault Refusal :=
  .next (hubEvent (·.decreaseHold i) s)

/-- HOLD EXPIRY: the decrease that brings remaining to 0 (R64, log 12), of a hold of limit 1 just handed over too
(log 28). -/
def execHoldExpiry (i : HoldIdx) (s : State) : Host.Outcome State Fault Refusal :=
  .next (hubEvent (fun s =>
    match s.hold i with
    | some e => if e.remaining ≤ 1 then s.expire i else s
    | none => s) s)

end Sys2Proof.Machine
end

