-- ==== Sys2Proof/Machine/Polls.lean ====
section
/-! DEFINITION. The poll frames and the poll engine's own events (chapter 7). -/

namespace Sys2Proof.Machine

/-! ### POLL SET, POLL START, POLL STOP -/

/-- Check 3 of POLL SET: the configuration the carried values make, if each is in range; unused pointer bytes are
stored as 0x00 (R123, R166). -/
def pollConfigOf (f : PollFields) : Option PollConfig :=
  match readIdx 32 f.route, readIdx 3 f.pointerCount, readNotify f.notify with
  | some route, some count, some notify =>
    if 1 ≤ f.readLen.toNat ∧ f.readLen.toNat ≤ 8 ∧ 1 ≤ f.period.toNat ∧ f.period.toNat ≤ 60000 then
      some ⟨route, count, if 1 ≤ count.val then f.pointer0 else 0, if 2 ≤ count.val then f.pointer1 else 0,
        f.readLen.toNat, f.period.toNat, notify⟩
    else none
  | _, _, _ => none

/-- A poll entry after POLL SET: OFF, its result cleared; an instance in flight is discarded, a queued one is gone
(R123). -/
def PollEntry.configured (e : PollEntry) (c : PollConfig) : PollEntry where
  config := c
  state := .off
  countdown := c.period
  mark := if e.mark = .inFlight then .inFlight else .none
  discard := e.mark == .inFlight
  overrun := 0
  result := .cleared c.readLen

/-- POLL SET after the claim and index checks (R123). -/
def State.pollSet (s : State) (n : PollIdx) (f : PollFields) : Answer :=
  match pollConfigOf f with
  | none => refuse s .pollSet .badValue
  | some c =>
    if (s.route c.route).valid then
      ⟨(s.undue n).setPoll n ((s.poll n).configured c), answer .pollSet .ok, .none⟩
    else refuse s .pollSet .noRoute

/-- POLL SET (R123). -/
def execPollSet (p : Port) (f : PollFields) (s : State) : Host.Outcome State Fault Refusal :=
  .next (frameOf p .pollSet (fun s =>
    withClaim p .pollSet s (withIndex 16 f.index .pollSet s fun n => s.pollSet n f)) s)

/-- POLL START after the claim and index checks: an OFF or SUSPENDED entry becomes ACTIVE with its full period
(R124). -/
def State.pollStart (s : State) (n : PollIdx) : Answer :=
  let e := s.poll n
  if (s.route e.config.route).valid then
    ⟨if e.state = .active then s else s.setPoll n { e with state := .active, countdown := e.config.period },
      answer .pollStart .ok, .none⟩
  else refuse s .pollStart .noRoute

/-- POLL START (R124). -/
def execPollStart (p : Port) (index : Byte) (s : State) : Host.Outcome State Fault Refusal :=
  .next (frameOf p .pollStart (fun s =>
    withClaim p .pollStart s (withIndex 16 index .pollStart s fun n => s.pollStart n)) s)

/-- POLL STOP after its checks: OFF, and a queued instance leaves its due list (R125). -/
def State.pollStop (s : State) (n : PollIdx) : Answer :=
  let e := s.poll n
  ⟨(s.undue n).setPoll n { e with state := .off, mark := if e.mark = .queued then .none else e.mark },
    answer .pollStop .ok, .none⟩

/-- POLL STOP (R125). -/
def execPollStop (p : Port) (index : Byte) (s : State) : Host.Outcome State Fault Refusal :=
  .next (frameOf p .pollStop (fun s =>
    withClaim p .pollStop s (withIndex 16 index .pollStop s fun n => s.pollStop n)) s)

/-! ### POLL GET and POLL READ -/

/-- The fields of a POLL GET reply (section 11.3). -/
def pollGetFields (e : PollEntry) : List Byte :=
  [byte e.config.route.val, byte e.config.pointerCount.val, e.config.pointer0, e.config.pointer1,
   byte e.config.readLen] ++ bytes2 e.config.period ++
  [e.config.notify.setWidth 8, e.state.code] ++ bytes2 e.countdown ++
  [e.mark.code, boolByte e.discard, byte e.overrun]

/-- POLL GET: configuration, state and runtime of an entry; any port may send it (R126). -/
def execPollGet (p : Port) (index : Byte) (s : State) : Host.Outcome State Fault Refusal :=
  .next (frameOf p .pollGet (fun s =>
    withIndex 16 index .pollGet s fun n => ⟨s, answer .pollGet .ok (pollGetFields (s.poll n)), .none⟩) s)

/-- The fields of a POLL READ reply; the read length is the configured one (section 11.3). -/
def pollReadFields (e : PollEntry) : List Byte :=
  [pollStatusCode e.result.status, e.result.sequence, boolByte e.result.valid] ++ bytes2 e.result.age ++
  [byte e.config.readLen] ++ e.result.data

/-- POLL READ: the cached result of an entry; any port may send it (R127). -/
def execPollRead (p : Port) (index : Byte) (s : State) : Host.Outcome State Fault Refusal :=
  .next (frameOf p .pollRead (fun s =>
    withIndex 16 index .pollRead s fun n => ⟨s, answer .pollRead .ok (pollReadFields (s.poll n)), .none⟩) s)

/-! ### Countdowns, dues and ages -/

namespace State

/-- A decrease has brought the countdown of an entry to 0: it reloads, and then counts an overrun, completes
SEGMENT_OFFLINE, or joins its segment's due list (R116). -/
def becomeDue (s : State) (n : PollIdx) : State :=
  let e := { s.poll n with countdown := (s.poll n).config.period }
  let g := (s.pollKey n).seg
  if e.mark ≠ .none then s.setPoll n { e with overrun := satInc 255 e.overrun }
  else if s.offline g then (s.setPoll n e).completePoll n .segmentOffline []
  else (s.setPoll n { e with mark := .queued }).setDue g (s.dueOf g ++ [n])

/-- One decrease of the countdown of an ACTIVE entry (R116). -/
def countdown (s : State) (n : PollIdx) : State :=
  let e := s.poll n
  if e.state = .active then
    if 1 < e.countdown then s.setPoll n { e with countdown := e.countdown - 1 } else s.becomeDue n
  else s

end State

/-- POLL COUNTDOWN: at a millisecond mark the countdown of an ACTIVE entry decreases; at 0 the entry becomes due in
the same event (R116, log 12). -/
def execPollCountdown (n : PollIdx) (s : State) : Host.Outcome State Fault Refusal :=
  .next (hubEvent (·.countdown n) s)

/-- POLL DUE: the decrease that brings the countdown of an ACTIVE entry to 0 (R116, log 12). -/
def execPollDue (n : PollIdx) (s : State) : Host.Outcome State Fault Refusal :=
  .next (hubEvent (fun s => if (s.poll n).state = .active ∧ (s.poll n).countdown ≤ 1 then s.becomeDue n else s) s)

/-- AGE INCREASE: at a millisecond mark the age of every result below 65535 increases, in every state (R122, log 13). -/
def execAgeIncrease (s : State) : Host.Outcome State Fault Refusal :=
  .next (hubEvent (·.mapPolls fun e => { e with result := { e.result with age := satInc 65535 e.result.age } }) s)

end Sys2Proof.Machine
end

