-- ==== Sys2Proof/Machine/Ports.lean ====
section
/-! DEFINITION. The controller ports: HUB INFO, framing, and the three resets (chapter 10). -/

namespace Sys2Proof.Machine

/-! ### HUB INFO (R165) -/

/-- HUB INFO: part code, revision, own port, roles, and the owner of semaphore 0 (R165). -/
def execHubInfo (p : Port) (s : State) : Host.Outcome State Fault Refusal :=
  .next (frameOf p .hubInfo (fun s =>
    ⟨s, answer .hubInfo .ok [0x34, 0x04, 0x01, byte p.val, (s.port 0).role.code, (s.port 1).role.code,
      (s.port 2).role.code, ownerCode (s.sem 0).owner], .none⟩) s)

/-! ### Framing (R156, R157, R158) -/

/-- BAD FRAME: an unknown kind is a framing error and is answered BAD_FRAME; it reaches no other block (R157). -/
def execBadFrame (p : Port) (_kind : Byte) (s : State) : Host.Outcome State Fault Refusal :=
  .next (takeFrame p none 1 (fun s =>
    ⟨s.modifyPort p (·.framingError), [ReplyStatus.badFrame.code], .none⟩) s)

/-- FRAMING ERROR: CSxN rose before the request part was complete; nothing is taken (R156). A port that is IN_RESET
counts none (R159). -/
def execFramingError (p : Port) (s : State) : Host.Outcome State Fault Refusal :=
  .next (if s.running p then s.modifyPort p fun ps => { ps with frame := none }.framingError else s)

/-- FRAME ENDS EARLY: the frame is over and does not act again (R158). -/
def execFrameEndsEarly (p : Port) (s : State) : Host.Outcome State Fault Refusal :=
  .next (if s.running p then s.modifyPort p fun ps => { ps with frame := none } else s)

/-! ### Port reset (R159, R160, R161) -/

/-- PORT RESET: answered OK with no check; it acts at its normal end (R161). -/
def execPortReset (p : Port) (s : State) : Host.Outcome State Fault Refusal :=
  .next (frameOf p .portReset (fun s => ⟨s, answer .portReset .ok, .none⟩) s)

/-- The normal end of a PORT RESET: the port-reset effects; the port stays RUNNING (R161). -/
def execPortResetNormalEnd (p : Port) (s : State) : Host.Outcome State Fault Refusal :=
  .next (frameEnd p .portReset (fun _ s => s.resetPort p) s)

/-- The level of PRSTxN, and no frame in progress. -/
def State.setPrst (s : State) (p : Port) (low : Bool) : State :=
  s.modifyPort p fun ps => { ps with inReset := low, frame := none }

/-- PRSTxN falls: a RUNNING port enters IN_RESET with the port-reset effects, and its frame in progress is abandoned
(R159). While RESETN is low the pin alone changes (R159). -/
def execPrstxnFall (p : Port) (s : State) : Host.Outcome State Fault Refusal :=
  .next (if s.running p then (s.resetPort p).setPrst p true else s.setPrst p true)

/-- PRSTxN rises: the port returns to RUNNING with the state the port reset left (R159). A port already RUNNING is not
disturbed (log 2). -/
def execPrstxnRise (p : Port) (s : State) : Host.Outcome State Fault Refusal :=
  .next (if (s.port p).inReset then s.setPrst p false else s)

/-! ### Pin reset (R162, R163) -/

/-- RESETN falls: the hub is held, frames in progress are abandoned (R163). -/
def execResetnFall (s : State) : Host.Outcome State Fault Refusal :=
  .next { s.mapPorts (fun _ ps => { ps with frame := none }) with held := true }

/-- The role a ROLEx level gives: high makes a SUPERVISOR (R162). -/
def roleOf (high : Bool) : Role := if high then .supervisor else .member

/-- RESETN rises: every block begins from its pin-reset values, roles are sampled, and each port is RUNNING or IN_RESET
by its PRSTxN level (R159, R162, R163). -/
def execResetnRise (role0 role1 role2 : Bool) (s : State) : Host.Outcome State Fault Refusal :=
  .next (State.pinReset
    #v[.pinReset (roleOf role0) (s.port 0).inReset, .pinReset (roleOf role1) (s.port 1).inReset,
      .pinReset (roleOf role2) (s.port 2).inReset] s.freeCount s.pending)

/-! ### HUB RESET (R164) -/

/-- HUB RESET: a SUPERVISOR that owns semaphore 0 is answered OK; it acts at its normal end (R164). -/
def execHubReset (p : Port) (s : State) : Host.Outcome State Fault Refusal :=
  .next (frameOf p .hubReset (fun s =>
    if (s.port p).role = .member then refuse s .hubReset .notSupervisor
    else withClaim p .hubReset s ⟨s, answer .hubReset .ok, .hubReset⟩) s)

/-- A reading frame in progress finds nothing of its snapshot after a HUB RESET; a HUB RESET frame of another port
still takes effect (R133, R164). -/
def Snapshot.afterHubReset : Snapshot → Snapshot
  | .hubReset => .hubReset
  | _ => .none

/-- A port at a HUB RESET: the port-reset values (R145). -/
def PortState.hubReset (ps : PortState) : PortState := (State.clearedPort ps).noteFrame Snapshot.afterHubReset

/-- Where a HUB RESET sends an engine (R112). An engine giving a pulse or stop stays RECOVERING until it is finished;
one still waiting for SCL gives none and goes at once (log 11). -/
def EngineState.hubReset (g : Seg) (now : Nat) : EngineState → EngineState
  | .idle | .checking _ _ | .faulted | .recovering .waitScl _ _ => .checking 0 0
  | .active t => .active (t.cut g now .hubReset)
  | .recovering (.pulse n) marks _ => .recovering (.pulse n) marks true
  | .recovering .stop marks _ => .recovering .stop marks true
  | .disabled => .disabled

/-- An engine at a HUB RESET: speed, limit and disable pending kept; tries, statistics and fault record cleared (R112). -/
def Engine.hubReset (now : Nat) (g : Seg) (e : Engine) : Engine :=
  { e with state := e.state.hubReset g now, tries := 0, faultReason := .none, faultCount := 0, stats := .zero }

/-- A poll entry at a HUB RESET: configuration and state kept (R130). -/
def PollEntry.hubReset (e : PollEntry) : PollEntry where
  config := e.config
  state := e.state
  countdown := e.config.period
  mark := .none
  discard := false
  overrun := 0
  result := .cleared e.config.readLen

/-- An arbiter at a HUB RESET: mode, ranking and quanta kept (R87). -/
def Arbiter.hubReset (a : Arbiter) : Arbiter := { a with deficits := #v[0, 0, 0, 0], current := 0 }

/-- A segment that ends DISABLED by a pending disable after a HUB RESET (R112, R164). -/
def Engine.endsDisabled (e : Engine) : Bool :=
  e.disablePending && (match e.state with
    | .active _ | .recovering _ _ _ => true
    | _ => false)

namespace State

/-- Every block's working state is reset (R164). -/
def hubCleared (s : State) : State :=
  { (((((s.mapPorts fun _ ps => ps.hubReset).mapEngines (Engine.hubReset s.freeCount)).draw).mapArbiters Arbiter.hubReset).mapPolls
      PollEntry.hubReset).mapDue (fun _ => []) with
    holds := Vector.replicate 8 none
    sems := Vector.replicate 8 .free }

/-- The HUB RESET event: everything is cleared first; then each segment that ends DISABLED by a pending disable joins
every port's segment notice set (R112, R145, R164, log 9). -/
def hubReset (s : State) : State :=
  allSegs.foldl (fun t g => if (s.engine g).endsDisabled then t.segmentNotice g else t) s.hubCleared

end State

/-- The normal end of a HUB RESET that passed its checks (R164). -/
def execHubResetNormalEnd (p : Port) (s : State) : Host.Outcome State Fault Refusal :=
  .next (frameEnd p .hubReset (fun snap s => if snap = .hubReset then s.hubReset else s) s)

end Sys2Proof.Machine
end

