-- ==== Sys2Proof/Machine/Flags.lean ====
section
/-! DEFINITION. The attention flags: the seven causes of a port, the mask over them, and the lines the hub drives. -/

namespace Sys2Proof.Machine

namespace PortState

/-- The seven causes as chapter 11 numbers them: bit 0 RESULT, 1 POSTED_FAULT, 2 HOLD_ENDED, 3 POLL_CHANGE, 4 SEGMENT,
5 SEM, 6 FRAMING. Each is pending while its condition holds (R141). -/
def pendingCauses (ps : PortState) : BitVec 7 :=
  let bit (b : Bool) (n : Nat) : BitVec 7 := if b then BitVec.twoPow 7 n else 0
  bit (!ps.results.isEmpty) 0 ||| bit ps.postedFault.isSome 1
    ||| bit (!ps.holdEnds.isEmpty || ps.lostEnds != 0) 2
    ||| bit (ps.notices.poll != 0) 3 ||| bit (ps.notices.seg != 0) 4
    ||| bit (ps.notices.freed != 0 || ps.notices.lost != 0) 5
    ||| bit ps.framingFlag 6

end PortState

namespace State

/-- ATTNxN is driven low exactly while the port is RUNNING and a cause is both pending and enabled (R144). -/
def attnLow (s : State) (p : Port) : Bool :=
  s.running p && ((s.port p).pendingCauses &&& (s.port p).mask) != 0

/-- The byte MISOx carries next on port `p`, none when it is not driven (R154). `wire` is what stands on the port's
pins: none while CSxN is high, else the bytes clocked since it fell (log 17). 0x00 through the request part and the gap
byte, then the reply part of the frame taken, then 0x00. While CSxN is low for bytes that are not a frame (R159, R163)
R154 has MISOx driven and gives no value; that it then carries 0x00 is the model's choice (log 29). -/
def misoByte (s : State) (p : Port) (wire : Option (List Byte)) : Option Byte :=
  if s.running p then
    wire.map fun bytes =>
      match (s.port p).frame with
      | some f =>
        if requestReceived bytes = false ∨ bytes.length ≤ f.requestLen then 0
        else f.reply.getD (bytes.length - (f.requestLen + 1)) 0
      | none => 0
  else none

/-- The engine drives SCL: ACTIVE, and giving a pulse or the stop of RECOVERING, while RESETN is high. In every other
state, and through the wait of R100 step 1, it is released (R89, R100, R111). -/
def drivesScl (s : State) (g : Seg) : Bool :=
  !s.held && match (s.engine g).state with
    | .active _ | .recovering (.pulse _) _ _ | .recovering .stop _ _ => true
    | .idle | .checking _ _ | .recovering .waitScl _ _ | .faulted | .disabled => false

/-- The engine drives SDA: ACTIVE, and giving the stop of RECOVERING, while RESETN is high (R89, R100, R111). -/
def drivesSda (s : State) (g : Seg) : Bool :=
  !s.held && match (s.engine g).state with
    | .active _ | .recovering .stop _ _ => true
    | .idle | .checking _ _ | .recovering .waitScl _ _ | .recovering (.pulse _) _ _ | .faulted | .disabled => false

/-- The engine acts on what its lines do: not while FAULTED or DISABLED (R89). -/
def watchesLines (s : State) (g : Seg) : Bool := !s.held && !s.offline g

end State

end Sys2Proof.Machine
end

