-- ==== Sys2Proof/Machine/Requests.lean ====
section
/-! DEFINITION. Request intake and the lane store: SUBMIT, CANCEL and LANE INSPECT (chapters 1 and 3). -/

namespace Sys2Proof.Machine

/-! ### The ten admission checks (R5) -/

/-- Check 2: write count and read length match the kind (R6). -/
def lengthsFit (k : Kind) (writeCount readLen : Nat) : Bool :=
  let some32 (n : Nat) : Bool := 1 ≤ n && n ≤ 32
  match k with
  | .read => writeCount == 0 && some32 readLen
  | .write => some32 writeCount && readLen == 0
  | .writeRead => some32 writeCount && some32 readLen
  | .probe | .hold | .release => writeCount == 0 && readLen == 0

/-- Check 3: POSTED only with WRITE, UNDER_HOLD not with HOLD or RELEASE (R7). -/
def flagsFit (k : Kind) (flags : Byte) : Bool :=
  (!flagPosted flags || k == .write) && (!flagUnderHold flags || k.usesBus)

/-- The valid route entry with an alias (R9, R21). -/
def State.resolveAlias (s : State) (a : Addr) : Option RouteIdx :=
  (List.finRange 32).find? fun i => (s.route i).valid && (s.route i).aliasAddr == a

/-- Check 5: the key, and the route index or none for "direct" (R9). -/
def State.resolve (s : State) (p : Port) (f : SubmitFields) : Except ReplyStatus (Key × Option RouteIdx) :=
  match readDirect f.mode with
  | some false =>
    match s.resolveAlias (readAddr f.aliasByte) with
    | some i => .ok ((s.route i).key, some i)
    | none => .error .noRoute
  | some true =>
    if (s.port p).role = .member then .error .notPermitted
    else
      match readIdx 4 f.segment with
      | some g => if usable (readAddr f.target) then .ok (⟨g, readAddr f.target⟩, none) else .error .noRoute
      | none => .error .noRoute
  | none => .error .noRoute

/-- Check 6: what a right permits (R10). -/
def rightPermits (r : Right) (k : Kind) (writeCount : Nat) : Bool :=
  match r with
  | .none => false
  | .read =>
    match k with
    | .read | .probe => true
    | .writeRead => writeCount ≤ 2
    | .write | .hold | .release => false
  | .readWrite => true

/-- The right and the posted permission of a resolved request: a DIRECT request reads no entry (R10, R11). -/
def State.permits (s : State) (p : Port) (route : Option RouteIdx) (k : Kind) (writeCount : Nat) : Bool :=
  match route with
  | some i => rightPermits (s.route i).rights[p] k writeCount
  | none => true

def State.permitsPosted (s : State) (route : Option RouteIdx) : Bool :=
  match route with
  | some i => (s.route i).posted
  | none => true

/-- The effective hold limit of a HOLD (R16); absent for every other kind. -/
def State.effectiveLimit (s : State) (k : Kind) (route : Option RouteIdx) (received : Byte) : Option Nat :=
  if k = .hold then
    if received = 0 then
      match route with
      | some i => some (s.route i).holdLimit
      | none => some 10
    else some received.toNat
  else none

/-- The ten checks in order: the code of the first that fails, or the request that admission records (R5, R15). -/
def State.admission (s : State) (p : Port) (f : SubmitFields) : Except ReplyStatus Request :=
  let ps := s.port p
  match readKind f.kind with
  | none => .error .badKind
  | some k =>
    if !lengthsFit k f.data.length f.readLen.toNat then .error .badLength
    else if !flagsFit k f.flags then .error .badFlags
    else if ps.tagInUse f.tag then .error .tagInUse
    else
      match s.resolve p f with
      | .error code => .error code
      | .ok (key, route) =>
        if !s.permits p route k f.data.length then .error .notPermitted
        else if flagPosted f.flags && !s.permitsPosted route then .error .badFlags
        else if !s.online key.seg then .error .segmentOffline
        else if 16 ≤ ps.reqs.length then .error .queueFull
        else if !flagPosted f.flags && 16 ≤ ps.results.length + ps.reservations then .error .resultSpace
        else .ok {
          tag := f.tag
          kind := k
          posted := flagPosted f.flags
          fence := flagFence f.flags
          underHold := flagUnderHold f.flags
          route := route
          key := key
          writeData := f.data
          readLen := f.readLen.toNat
          holdLimit := s.effectiveLimit k route f.holdLimit
          reservation := !flagPosted f.flags
          state := .queued }

/-- The request joins the tail of the admission order and of its lane (R15, R35). -/
def State.addOpen (s : State) (p : Port) (r : Request) : State :=
  s.modifyPort p fun ps => { ps with reqs := ps.reqs ++ [r] }

/-- SUBMIT: the record is checked as one event and admitted or refused; the reply carries the code and the tag (R5). -/
def execSubmit (p : Port) (f : SubmitFields) (s : State) : Host.Outcome State Fault Refusal :=
  .next (takeFrame p (some .submit) (11 + f.data.length) (fun s =>
    match s.admission p f with
    | .ok r => ⟨s.addOpen p r, answer .submit .ok [f.tag], .none⟩
    | .error code => ⟨s, answer .submit code [f.tag], .none⟩) s)

/-! ### CANCEL (R45) -/

/-- What CANCEL does to the open request with the tag, by its state (R45, R46). -/
def State.cancelReq (s : State) (p : Port) (tag : Byte) : State × ReplyStatus :=
  match (s.port p).find tag with
  | none => (s, .unknownTag)
  | some r =>
    match r.state with
    | .queued => (s.completeReq p r { status := .cancelled }, .ok)
    | .waitingHold => ((s.dropWaiters p (· == tag)).completeReq p r { status := .cancelled }, .ok)
    | .inFlight => (s, .inFlight)

/-- CANCEL: the port's QUEUED or WAITING_HOLD request with the tag completes CANCELLED; an IN_FLIGHT one stays (R45). -/
def execCancel (p : Port) (tag : Byte) (s : State) : Host.Outcome State Fault Refusal :=
  .next (frameOf p .cancel (fun s =>
    ⟨(s.cancelReq p tag).1, answer .cancel (s.cancelReq p tag).2 [tag], .none⟩) s)

/-! ### LANE INSPECT (R48) -/

/-- One entry of a LANE INSPECT reply. -/
def laneEntry (r : Request) : List Byte := [r.tag, byte r.key.seg.val, r.kind.code, r.state.code]

/-- LANE INSPECT: the open requests in admission order, places after the last reading 0x00 (R48). -/
def execLaneInspect (p : Port) (s : State) : Host.Outcome State Fault Refusal :=
  .next (frameOf p .laneInspect (fun s =>
    let reqs := (s.port p).reqs
    ⟨s, answer .laneInspect .ok (byte reqs.length :: reqs.flatMap laneEntry), .none⟩) s)

end Sys2Proof.Machine
end

