-- ==== Sys2Proof/Machine/Results.lean ====
section
/-! DEFINITION. The frames that read a port's result store and attention unit, and their normal ends (chapter 8). -/

namespace Sys2Proof.Machine

/-! ### FETCH (R134) -/

/-- The fields of a FETCH reply: the count stored and the head record. The read length reads 0x00 where read data is
absent (R167). -/
def fetchFields (stored : Nat) (r : Result) : List Byte :=
  [byte stored, r.tag, r.kind.code, r.status.code, byte r.ackCount, byte (r.holdRemaining.getD 0),
   byte r.readData.length] ++ r.readData

/-- FETCH: a snapshot of the head record and the number stored, or EMPTY (R134). -/
def execFetch (p : Port) (s : State) : Host.Outcome State Fault Refusal :=
  .next (frameOf p .fetch (fun s =>
    match (s.port p).results with
    | [] => ⟨s, answer .fetch .empty, .none⟩
    | r :: rest => ⟨s, answer .fetch .ok (fetchFields (rest.length + 1) r), .fetch r⟩) s)

/-- The removal of FETCH: the returned record, if it is still the head (R134). -/
def fetchRemoval (p : Port) (snap : Snapshot) (s : State) : State :=
  match snap with
  | .fetch r => s.modifyPort p fun ps =>
      if ps.results.head? = some r then { ps with results := ps.results.tail } else ps
  | _ => s

/-- The normal end of a FETCH (R133, R134). -/
def execFetchNormalEnd (p : Port) (s : State) : Host.Outcome State Fault Refusal :=
  .next (frameEnd p .fetch (fetchRemoval p) s)

/-! ### POSTED FAULT (R136) -/

/-- The fields of a POSTED FAULT reply (section 11.3). -/
def postedFaultFields (f : PostedFault) : List Byte :=
  [f.tag, routeCode f.route, byte f.key.seg.val, f.key.target.setWidth 8, f.status.code, byte f.ackCount,
   byte f.further]

/-- POSTED FAULT: a snapshot of the posted-fault record, or EMPTY (R136). -/
def execPostedFault (p : Port) (s : State) : Host.Outcome State Fault Refusal :=
  .next (frameOf p .postedFault (fun s =>
    match (s.port p).postedFault with
    | none => ⟨s, answer .postedFault .empty, .none⟩
    | some f => ⟨s, answer .postedFault .ok (postedFaultFields f), .postedFault false⟩) s)

/-- The removal of POSTED FAULT: the record becomes empty, provided none was entered since the snapshot (R136). -/
def postedFaultRemoval (p : Port) (snap : Snapshot) (s : State) : State :=
  match snap with
  | .postedFault false => s.modifyPort p fun ps => { ps with postedFault := none }
  | _ => s

/-- The normal end of a POSTED FAULT (R136). -/
def execPostedFaultNormalEnd (p : Port) (s : State) : Host.Outcome State Fault Refusal :=
  .next (frameEnd p .postedFault (postedFaultRemoval p) s)

/-! ### HOLD ENDS (R138) -/

/-- One record of a HOLD ENDS reply. -/
def holdEndFields (e : HoldEnd) : List Byte := [byte e.key.seg.val, e.key.target.setWidth 8, e.reason.code]

/-- The fields of a HOLD ENDS reply: four record places, those after the last reading 0x00 (R138). -/
def holdEndsFields (ends : List HoldEnd) (lost : Nat) : List Byte :=
  byte ends.length :: padTo 12 (ends.flatMap holdEndFields) ++ [byte lost]

/-- HOLD ENDS: a snapshot of the hold-end list and the lost count (R138). -/
def execHoldEnds (p : Port) (s : State) : Host.Outcome State Fault Refusal :=
  .next (frameOf p .holdEnds (fun s =>
    let ps := s.port p
    ⟨s, answer .holdEnds .ok (holdEndsFields ps.holdEnds ps.lostEnds), .holdEnds ps.holdEnds.length 0⟩) s)

/-- The removal of HOLD ENDS: the reported records, which are still the oldest of the list, and the lost count
reported (R138). -/
def holdEndsRemoval (p : Port) (snap : Snapshot) (s : State) : State :=
  match snap with
  | .holdEnds count lost => s.modifyPort p fun ps => { ps with holdEnds := ps.holdEnds.drop count, lostEnds := lost }
  | _ => s

/-- The normal end of a HOLD ENDS (R138). -/
def execHoldEndsNormalEnd (p : Port) (s : State) : Host.Outcome State Fault Refusal :=
  .next (frameEnd p .holdEnds (holdEndsRemoval p) s)

/-! ### NOTICES (R140) -/

/-- The fields of a NOTICES reply (section 11.3). -/
def noticesFields (n : NoticeSets) : List Byte :=
  bytes2 n.poll.toNat ++ [n.seg.setWidth 8, n.freed, n.lost]

/-- NOTICES: a snapshot of the four sets (R140). -/
def execNotices (p : Port) (s : State) : Host.Outcome State Fault Refusal :=
  .next (frameOf p .notices (fun s =>
    ⟨s, answer .notices .ok (noticesFields (s.port p).notices), .notices (s.port p).notices .empty⟩) s)

/-- The removal of NOTICES: each reported member that was not added again since the snapshot (R140). -/
def noticesRemoval (p : Port) (snap : Snapshot) (s : State) : State :=
  match snap with
  | .notices reported again => s.modifyPort p fun ps => { ps with notices := ps.notices.diff (reported.diff again) }
  | _ => s

/-- The normal end of a NOTICES (R140). -/
def execNoticesNormalEnd (p : Port) (s : State) : Host.Outcome State Fault Refusal :=
  .next (frameEnd p .notices (noticesRemoval p) s)

/-! ### CAUSES and CAUSE MASK (R142, R143) -/

/-- CAUSES: the pending causes, the mask and the framing count as they stood; bit 0 of the clear byte clears the
framing flag and count (R143). -/
def execCauses (p : Port) (clear : Byte) (s : State) : Host.Outcome State Fault Refusal :=
  .next (frameOf p .causes (fun s =>
    let ps := s.port p
    let reply := answer .causes .ok [ps.pendingCauses.setWidth 8, ps.mask.setWidth 8, byte ps.framingCount]
    ⟨if clear.getLsbD 0 then s.modifyPort p fun ps => { ps with framingFlag := false, framingCount := 0 } else s,
      reply, .none⟩) s)

/-- CAUSE MASK: the seven enables are replaced; bit 7 is not assigned and is ignored (R142, R166). -/
def execCauseMask (p : Port) (mask : Byte) (s : State) : Host.Outcome State Fault Refusal :=
  .next (frameOf p .causeMask (fun s =>
    let m : BitVec 7 := mask.setWidth 7
    ⟨s.modifyPort p fun ps => { ps with mask := m }, answer .causeMask .ok [m.setWidth 8], .none⟩) s)

end Sys2Proof.Machine
end

