-- ==== Sys2Proof/Machine/Routes.lean ====
section
/-! DEFINITION. The route frames and the route change sweep (chapter 2). -/

namespace Sys2Proof.Machine

namespace State

/-- The requests a sweep of index `i` completes: QUEUED and WAITING_HOLD ones recorded with the index (R27). -/
def swept (i : RouteIdx) (r : Request) : Bool := r.route == some i && r.state != .inFlight

/-- How many requests of port `p` a sweep of index `i` completes. -/
def sweptCount (s : State) (i : RouteIdx) (p : Port) : Nat := ((s.port p).reqs.filter (swept i)).length

/-- The tags of port `p`'s waiting HOLDs that a sweep of index `i` completes leave the waiters (R29). -/
def sweepWaiters (s : State) (i : RouteIdx) (p : Port) : State :=
  s.dropWaiters p fun tag => (s.port p).reqs.any fun r => swept i r && r.state == .waitingHold && r.tag == tag

/-- The sweep of port `p`'s requests: each completes ROUTE_CHANGED, in admission order (R28, R29). -/
def sweepPort (s : State) (i : RouteIdx) (p : Port) : State :=
  (s.sweepWaiters i p).modifyPort p (·.completeAll (swept i) .routeChanged)

/-- A poll entry that names the changed index and is ACTIVE: the sweep suspends it (R31). -/
def suspends (i : RouteIdx) (e : PollEntry) : Bool := e.config.route == i && e.state == .active

/-- How many poll entries a sweep of index `i` suspends (R31). -/
def suspendCount (s : State) (i : RouteIdx) : Nat := (allPolls.filter fun n => suspends i (s.poll n)).length

/-- A suspended entry: status ROUTE_CHANGED, sequence one higher; a queued mark is cleared, an instance in flight
stays so (R31). -/
def suspend (e : PollEntry) : PollEntry :=
  { e with
    state := .suspended
    mark := if e.mark = .queued then .none else e.mark
    result := { e.result with status := some .routeChanged, sequence := e.result.sequence + 1 } }

/-- The sweep of the poll table: a queued instance of a suspended entry leaves its due list (R31). -/
def sweepPolls (s : State) (i : RouteIdx) : State :=
  (s.mapDue (·.filter fun n => !suspends i (s.poll n))).mapPolls fun e => if suspends i e then suspend e else e

/-- The route change sweep for an index (R27). -/
def sweep (s : State) (i : RouteIdx) : State :=
  (allPorts.foldl (fun s p => s.sweepPort i p) s).sweepPolls i

/-- The two numbers of a ROUTE SET or ROUTE CLEAR reply: requests completed over all ports, poll entries suspended
(R24). -/
def sweepCounts (s : State) (i : RouteIdx) : List Byte :=
  [byte (s.sweptCount i 0 + s.sweptCount i 1 + s.sweptCount i 2), byte (s.suspendCount i)]

end State

/-- Check 3 of ROUTE SET: the entry the carried values make, if each is in range (R23). -/
def routeEntryOf (f : RouteFields) : Option RouteEntry :=
  match readIdx 4 f.segment, readRight f.right0, readRight f.right1, readRight f.right2, readYesNo f.posted with
  | some g, some r0, some r1, some r2, some posted =>
    if usable (readAddr f.aliasByte) && usable (readAddr f.target) && f.holdLimit != 0 then
      some ⟨true, readAddr f.aliasByte, ⟨g, readAddr f.target⟩, #v[r0, r1, r2], posted, f.holdLimit.toNat⟩
    else none
  | _, _, _, _, _ => none

/-- Check 4 of ROUTE SET: a valid entry with another index has the alias (R21, R23). -/
def State.aliasTaken (s : State) (i : RouteIdx) (a : Addr) : Bool :=
  (List.finRange 32).any fun j => j != i && (s.route j).valid && (s.route j).aliasAddr == a

/-- ROUTE SET after the claim and index checks: the entry is written whole, and a sweep follows when it was valid
(R23, R24). -/
def State.routeSet (s : State) (i : RouteIdx) (f : RouteFields) : Answer :=
  match routeEntryOf f with
  | none => refuse s .routeSet .badValue
  | some e =>
    if s.aliasTaken i e.aliasAddr then refuse s .routeSet .aliasTaken
    else if (s.route i).valid then
      ⟨(s.setRoute i e).sweep i, answer .routeSet .ok (s.sweepCounts i), .none⟩
    else ⟨s.setRoute i e, answer .routeSet .ok [0, 0], .none⟩

/-- ROUTE SET (R23). -/
def execRouteSet (p : Port) (f : RouteFields) (s : State) : Host.Outcome State Fault Refusal :=
  .next (frameOf p .routeSet (fun s =>
    withClaim p .routeSet s (withIndex 32 f.index .routeSet s fun i => s.routeSet i f)) s)

/-- ROUTE CLEAR after its checks: a valid entry becomes invalid, keeps its fields, and is swept (R25). -/
def State.routeClear (s : State) (i : RouteIdx) : Answer :=
  if (s.route i).valid then
    ⟨(s.setRoute i { s.route i with valid := false }).sweep i, answer .routeClear .ok (s.sweepCounts i), .none⟩
  else ⟨s, answer .routeClear .ok [0, 0], .none⟩

/-- ROUTE CLEAR (R25). -/
def execRouteClear (p : Port) (index : Byte) (s : State) : Host.Outcome State Fault Refusal :=
  .next (frameOf p .routeClear (fun s =>
    withClaim p .routeClear s (withIndex 32 index .routeClear s fun i => s.routeClear i)) s)

/-- The fields of a ROUTE GET reply (section 11.3). -/
def routeFields (e : RouteEntry) : List Byte :=
  [boolByte e.valid, e.aliasAddr.setWidth 8, byte e.key.seg.val, e.key.target.setWidth 8,
   e.rights[0].code, e.rights[1].code, e.rights[2].code, boolByte e.posted, byte e.holdLimit]

/-- ROUTE GET: the entry as it stands; any port may send it (R26). -/
def execRouteGet (p : Port) (index : Byte) (s : State) : Host.Outcome State Fault Refusal :=
  .next (frameOf p .routeGet (fun s =>
    withIndex 32 index .routeGet s fun i => ⟨s, answer .routeGet .ok (routeFields (s.route i)), .none⟩) s)

end Sys2Proof.Machine
end

