-- ==== Sys2Proof/Machine/Arbiter.lean ====
section
/-! DEFINITION. Segment arbitration (chapter 5) and the grant that starts a transaction (R78, R92, R93). -/

namespace Sys2Proof.Machine

/-! ### Transactions (R90, R93) -/

namespace Work

/-- The address byte: the 7-bit target, most-significant bit first, then the direction bit (R90). -/
def addressByte (w : Work) (readBit : Bool) : Byte := w.target ++ BitVec.ofBool readBit

/-- The bytes read: every one acknowledged by the engine except the last (R90). -/
def readElements (w : Work) : List BusElement := (List.range w.readLen).map fun i => .read (i + 1 != w.readLen)

/-- The elements of the transaction in order (R93). -/
def elements (w : Work) : List BusElement :=
  if w.writesFirst then
    [.start, .address (w.addressByte false)] ++ w.write.map .write ++
      (if w.readLen = 0 then [] else [.restart, .address (w.addressByte true)] ++ w.readElements) ++ [.stop]
  else [.start, .address (w.addressByte true)] ++ w.readElements ++ [.stop]

end Work

/-- The phase an element belongs to (R93). -/
def BusElement.phase : BusElement → Phase
  | .start => .start
  | .address _ => .address
  | .write _ => .write
  | .restart => .restart
  | .read _ => .read
  | .stop => .stop

/-! ### Candidates (R73, R74) -/

/-- What a contender offers: a request of a port, or a due poll. -/
inductive Candidate where
  | request (p : Port) (r : Request)
  | poll (n : PollIdx)
  deriving DecidableEq, Repr

namespace State

/-- Port `p`'s candidate on segment `g`: the ready head of its lane, if it is a bus request and its key is free or
held by the port itself (R73). -/
def portCandidate (s : State) (g : Seg) (p : Port) : Option Request :=
  match (s.port p).readyHead g with
  | some r =>
    if r.kind.usesBus = true ∧ (s.holderOf r.key = none ∨ s.holderOf r.key = some p) then some r else none
  | none => none

/-- The poll contender's candidate: the oldest due entry whose key no port holds (R74). -/
def pollCandidate (s : State) (g : Seg) : Option PollIdx :=
  (s.dueOf g).find? fun n => (s.holderOf (s.pollKey n)).isNone

/-- The candidate of a contender on a segment. -/
def candidate (s : State) (g : Seg) (c : Contender) : Option Candidate :=
  if h : c.val < 3 then (s.portCandidate g ⟨c.val, h⟩).map (.request ⟨c.val, h⟩)
  else (s.pollCandidate g).map .poll

/-- The work of a candidate: a request's as admission recorded it, a poll's as its entry is configured (R93, R119). -/
def workOf (s : State) : Candidate → Work
  | .request _ r => ⟨r.key.target, r.writeData, r.readLen⟩
  | .poll n =>
    let c := (s.poll n).config
    ⟨(s.pollKey n).target, [c.pointer0, c.pointer1].take c.pointerCount.val, c.readLen⟩

/-- The cost of a candidate: the bytes it moves plus one for its address (R81). -/
def cost (s : State) (c : Candidate) : Nat := 1 + (s.workOf c).write.length + (s.workOf c).readLen

/-! ### Choosing a winner (R79, R82) -/

/-- The procedure of R82 from the deficits and the current contender: the first win, before it is charged. `costs` are
the costs of the candidates of the four contenders, none for a contender without a candidate. -/
def rotate (costs : Vector (Option Nat) 4) (quanta : Vector Nat 4) :
    Nat → Vector Nat 4 → Contender → Option (Vector Nat 4 × Contender)
  | 0, _, _ => none
  | fuel + 1, deficits, c =>
    let next := c + 1
    let arrive (d : Vector Nat 4) := if costs[next].isSome then d.set next (d[next] + quanta[next]) else d
    match costs[c] with
    | some k => if k ≤ deficits[c] then some (deficits, c) else rotate costs quanta fuel (arrive deficits) next
    | none => rotate costs quanta fuel (arrive (deficits.set c 0)) next

/-- The costs of the four contenders' candidates. -/
def costs (s : State) (g : Seg) : Vector (Option Nat) 4 := Vector.ofFn fun c => (s.candidate g c).map s.cost

/-- The winner of a decision and the arbiter before the win is charged: the highest-ranked contender with a candidate
in PRIORITY, the first win of the rotation in DEFICIT (R79, R82). Nine full passes always suffice (R83). -/
def winner (s : State) (g : Seg) : Option (Contender × Arbiter) :=
  let a := s.arbiter g
  if (allSegs.any fun c => (s.candidate g c).isSome) then
    match a.mode with
    | .priority => (a.ranking.toList.find? fun c => (s.candidate g c).isSome).map fun c => (c, a)
    | .deficit =>
      (rotate (s.costs g) a.quanta 40 a.deficits a.current).map fun (d, c) => (c, { a with deficits := d, current := c })
  else none

/-- A win is charged its cost in DEFICIT mode (R82 step 1). -/
def charge (a : Arbiter) (c : Contender) (cost : Nat) : Arbiter :=
  match a.mode with
  | .priority => a
  | .deficit => { a with deficits := a.deficits.set c (a.deficits[c] - cost) }

/-! ### The grant (R78, R92) -/

/-- The engine becomes ACTIVE with a transaction, whose speed and limit it takes at the grant (R92). -/
def startEngine (e : Engine) (c : Carrier) (w : Work) (now : Nat) : Engine :=
  { e with
    state := .active ⟨c, w, w.elements, e.speed, e.limit, 0, now⟩
    stats := { e.stats with started := satInc 65535 e.stats.started } }

/-- The winner's candidate is handed to the engine: the request becomes IN_FLIGHT, or the poll leaves its due list
(R78). -/
def grant (s : State) (g : Seg) (c : Candidate) : State :=
  let w := s.workOf c
  match c with
  | .request p r =>
    (s.modifyPort p (·.setReqState r.tag .inFlight)).setEngine g (startEngine (s.engine g) (.port p) w s.freeCount)
  | .poll n =>
    ((s.setDue g ((s.dueOf g).erase n)).setPoll n { s.poll n with mark := .inFlight }).setEngine g
      (startEngine (s.engine g) (.poll n) w s.freeCount)

/-- A granted UNDER_HOLD request whose port is not the holder of its key (R62). -/
def losesHold (s : State) (p : Port) (r : Request) : Bool := r.underHold && s.holderOf r.key != some p

/-- A decision: it ends with a grant, or with no candidate left after requests that completed HOLD_LOST (R62, R78). -/
def runDecision (g : Seg) : Nat → State → State
  | 0, s => s
  | fuel + 1, s =>
    match s.winner g with
    | none => s
    | some (c, a) =>
      match s.candidate g c with
      | none => s
      | some (.request p r) =>
        if s.losesHold p r then runDecision g fuel ((s.setArbiter g a).completeReq p r { status := .holdLost })
        else (s.setArbiter g (charge a c (s.cost (.request p r)))).grant g (.request p r)
      | some (.poll n) => (s.setArbiter g (charge a c (s.cost (.poll n)))).grant g (.poll n)

/-- The number of open requests of all ports: no decision can repeat more often (R78). -/
def openCount (s : State) : Nat := (s.port 0).reqs.length + (s.port 1).reqs.length + (s.port 2).reqs.length

/-- An arbiter decides when its engine is IDLE with no disable pending (R76). -/
def mayDecide (s : State) (g : Seg) : Bool := (s.engine g).state == .idle && !(s.engine g).disablePending

end State

/-- ARBITER DECISION on a segment (R76); without a candidate nothing is decided. -/
def execArbiterDecision (g : Seg) (s : State) : Host.Outcome State Fault Refusal :=
  .next (hubEvent (fun s => if s.mayDecide g then State.runDecision g (s.openCount + 1) s else s) s)

end Sys2Proof.Machine
end

