-- ==== Sys2Proof/Machine/Segments.lean ====
section
/-! DEFINITION. The segment frames: SEGMENT SET, SEGMENT GET, SEGMENT DISABLE, SEGMENT RESTORE and STATS CLEAR
(chapters 5 and 6). -/

namespace Sys2Proof.Machine

/-! ### SEGMENT SET (R84, R106) -/

/-- The values a SEGMENT SET carries, once they are known to be in range. -/
structure SegmentConfig where
  speed : Speed
  limit : Nat
  mode : ArbMode
  ranking : Vector Contender 4
  quanta : Vector Nat 4
  deriving DecidableEq, Repr

/-- Check 3 of SEGMENT SET (R84, R106). -/
def segmentConfigOf (f : SegmentFields) : Option SegmentConfig :=
  match readSpeed f.speed, readMode f.mode, readRanking f.rank1 f.rank2 f.rank3 f.rank4 with
  | some speed, some mode, some ranking =>
    if f.limit != 0 && quantumFits f.quantum0 && quantumFits f.quantum1 && quantumFits f.quantum2
        && quantumFits f.quantum3 then
      some ⟨speed, f.limit.toNat, mode, ranking,
        #v[f.quantum0.toNat, f.quantum1.toNat, f.quantum2.toNat, f.quantum3.toNat]⟩
    else none
  | _, _, _ => none

/-- The arbiter's part of a SEGMENT SET (R84). -/
def Arbiter.configured (a : Arbiter) (c : SegmentConfig) : Arbiter :=
  if c.mode ≠ a.mode then ⟨c.mode, c.ranking, c.quanta, #v[0, 0, 0, 0], 0⟩
  else
    match a.mode with
    | .priority => { a with ranking := c.ranking, quanta := c.quanta }
    | .deficit =>
      { a with
        ranking := c.ranking
        quanta := c.quanta
        deficits := Vector.ofFn fun i => min a.deficits[i] (c.quanta[i] + 64) }

/-- SEGMENT SET after the claim and index checks: engine and arbiter change as one event (R106). -/
def State.segmentSet (s : State) (g : Seg) (f : SegmentFields) : Answer :=
  match segmentConfigOf f with
  | none => refuse s .segmentSet .badValue
  | some c =>
    ⟨(s.setEngine g { s.engine g with speed := c.speed, limit := c.limit }).setArbiter g ((s.arbiter g).configured c),
      answer .segmentSet .ok, .none⟩

/-- SEGMENT SET (R106). -/
def execSegmentSet (p : Port) (f : SegmentFields) (s : State) : Host.Outcome State Fault Refusal :=
  .next (frameOf p .segmentSet (fun s =>
    withClaim p .segmentSet s (withIndex 4 f.segment .segmentSet s fun g => s.segmentSet g f)) s)

/-! ### SEGMENT GET (R72, R107) -/

/-- The phase a transaction stands in: that of the first element not yet finished (R88). -/
def Transaction.phase (t : Transaction) (g : Seg) (now : Nat) : Phase :=
  match t.standing g now with
  | e :: _ => e.phase
  | [] => .stop

/-- A look at where a transaction stands is counted; nothing of the hub changes (R107, log 7). -/
def State.look (s : State) (g : Seg) : State :=
  match (s.engine g).state with
  | .active _ => s.draw
  | _ => s

/-- The phase and occupant bytes: 0x00 and 0xFF when the engine is not ACTIVE (R167). -/
def phaseAndOccupant (g : Seg) (now : Nat) : EngineState → List Byte
  | .active t => [(t.phase g now).code, t.carrier.code]
  | _ => [0x00, 0xFF]

/-- The fields of a SEGMENT GET reply (section 11.3). -/
def segmentFields (g : Seg) (now : Nat) (e : Engine) (a : Arbiter) : List Byte :=
  [e.speed.code, byte e.limit, a.mode.code] ++ a.ranking.toList.map (fun c => byte c.val)
    ++ a.quanta.toList.map byte
    ++ [e.state.code] ++ phaseAndOccupant g now e.state
    ++ [boolByte e.disablePending, byte e.tries, e.faultReason.code, byte e.faultCount]
    ++ bytes2 e.stats.started ++ bytes2 e.stats.addrNacks ++ bytes2 e.stats.dataNacks ++ bytes2 e.stats.timeouts
    ++ bytes2 e.stats.lineConflicts ++ bytes2 e.stats.recoveries ++ bytes2 e.stats.faults
    ++ a.deficits.toList.flatMap bytes2 ++ [byte a.current.val]

/-- SEGMENT GET: a snapshot of engine and arbiter; any port may send it (R72, R107). -/
def execSegmentGet (p : Port) (segment : Byte) (s : State) : Host.Outcome State Fault Refusal :=
  .next (frameOf p .segmentGet (fun s =>
    withIndex 4 segment .segmentGet s fun g =>
      ⟨s.look g, answer .segmentGet .ok (segmentFields g s.freeCount (s.engine g) (s.arbiter g)), .none⟩) s)

/-! ### SEGMENT DISABLE, SEGMENT RESTORE, STATS CLEAR (R103, R105, R108) -/

/-- Disable pending is set; the engine goes on until it may stop (R103). -/
def State.disableLater (s : State) (g : Seg) : State := s.setEngine g { s.engine g with disablePending := true }

/-- SEGMENT DISABLE after its checks, by the engine's state (R103). -/
def State.segmentDisable (s : State) (g : Seg) : Answer :=
  match (s.engine g).state with
  | .disabled => refuse s .segmentDisable .alreadyOffline
  | .idle | .checking _ _ | .faulted | .recovering .waitScl _ _ =>
    ⟨s.enterDisabled g, answer .segmentDisable .ok, .none⟩
  | .active _ | .recovering (.pulse _) _ _ | .recovering .stop _ _ =>
    ⟨s.disableLater g, answer .segmentDisable .ok, .none⟩

/-- SEGMENT DISABLE (R103). -/
def execSegmentDisable (p : Port) (segment : Byte) (s : State) : Host.Outcome State Fault Refusal :=
  .next (frameOf p .segmentDisable (fun s =>
    withClaim p .segmentDisable s (withIndex 4 segment .segmentDisable s fun g => s.segmentDisable g)) s)

/-- SEGMENT RESTORE after its checks: an offline segment goes to CHECKING with tries 0, and every port is told (R105). -/
def State.segmentRestore (s : State) (g : Seg) : Answer :=
  if s.offline g then
    ⟨(s.setEngine g { s.engine g with state := .checking 0 0, tries := 0 }).segmentNotice g,
      answer .segmentRestore .ok, .none⟩
  else refuse s .segmentRestore .notOffline

/-- SEGMENT RESTORE (R105). -/
def execSegmentRestore (p : Port) (segment : Byte) (s : State) : Host.Outcome State Fault Refusal :=
  .next (frameOf p .segmentRestore (fun s =>
    withClaim p .segmentRestore s (withIndex 4 segment .segmentRestore s fun g => s.segmentRestore g)) s)

/-- STATS CLEAR: all seven statistics become 0, the fault record is kept (R108). -/
def execStatsClear (p : Port) (segment : Byte) (s : State) : Host.Outcome State Fault Refusal :=
  .next (frameOf p .statsClear (fun s =>
    withClaim p .statsClear s (withIndex 4 segment .statsClear s fun g =>
      ⟨s.setEngine g { s.engine g with stats := .zero }, answer .statsClear .ok, .none⟩)) s)

end Sys2Proof.Machine
end

