-- ==== Sys2Proof/Machine/Semaphores.lean ====
section
/-! DEFINITION. The semaphore frames (chapter 9). -/

namespace Sys2Proof.Machine

/-- The reply of a semaphore frame: the status, n as received, and the owner after the event (R147, R148, R149). -/
def semAnswer (k : FrameKind) (st : ReplyStatus) (n : Byte) (owner : Option Port) : List Byte :=
  answer k st [n, ownerCode owner]

/-- SEM TAKE on semaphore `i`: the role test comes before the ownership test (R147). -/
def State.semTake (s : State) (p : Port) (i : SemIdx) : State × ReplyStatus :=
  if i = 0 ∧ (s.port p).role = .member then (s, .notSupervisor)
  else
    match (s.sem i).owner with
    | none => (s.setSem i { s.sem i with owner := some p }, .got)
    | some q =>
      if q = p then (s, .alreadyOwned)
      else (s.setSem i { s.sem i with interest := (s.sem i).interest ||| BitVec.twoPow 3 p.val }, .semBusy)

/-- SEM TAKE (R147). -/
def execSemTake (p : Port) (n : Byte) (s : State) : Host.Outcome State Fault Refusal :=
  .next (frameOf p .semTake (fun s =>
    match readIdx 8 n with
    | none => ⟨s, semAnswer .semTake .badIndex n none, .none⟩
    | some i =>
      let r := s.semTake p i
      ⟨r.1, semAnswer .semTake r.2 n (r.1.sem i).owner, .none⟩) s)

/-- SEM GIVE on semaphore `i` (R148). -/
def State.semGive (s : State) (p : Port) (i : SemIdx) : State × ReplyStatus :=
  if (s.sem i).owner = some p then (s.freeSem i, .freed) else (s, .notOwner)

/-- SEM GIVE (R148). -/
def execSemGive (p : Port) (n : Byte) (s : State) : Host.Outcome State Fault Refusal :=
  .next (frameOf p .semGive (fun s =>
    match readIdx 8 n with
    | none => ⟨s, semAnswer .semGive .badIndex n none, .none⟩
    | some i =>
      let r := s.semGive p i
      ⟨r.1, semAnswer .semGive r.2 n (r.1.sem i).owner, .none⟩) s)

/-- SEM BREAK on semaphore `i` by a supervisor: it is freed, and its former owner is told it is lost (R149). -/
def State.semBreak (s : State) (i : SemIdx) : State × ReplyStatus :=
  match (s.sem i).owner with
  | some q => ((s.freeSem i).modifyPort q (·.addNotices (.ofLost i)), .freed)
  | none => (s, .ok)

/-- SEM BREAK: a MEMBER is answered NOT_SUPERVISOR for every n, with the owner as it stands when n is 0 to 7 (R149). -/
def execSemBreak (p : Port) (n : Byte) (s : State) : Host.Outcome State Fault Refusal :=
  .next (frameOf p .semBreak (fun s =>
    if (s.port p).role = .member then
      ⟨s, semAnswer .semBreak .notSupervisor n ((readIdx 8 n).bind fun i => (s.sem i).owner), .none⟩
    else
      match readIdx 8 n with
      | none => ⟨s, semAnswer .semBreak .badIndex n none, .none⟩
      | some i =>
        let r := s.semBreak i
        ⟨r.1, semAnswer .semBreak r.2 n (r.1.sem i).owner, .none⟩) s)

end Sys2Proof.Machine
end

