-- ==== Sys2Proof/Machine/Dispatch.lean ====
section
/-! DEFINITION. The command dispatch: one arm for each constructor of Instr, each one call of its meaning. -/

namespace Sys2Proof.Machine

def exec (i : Instr) (s : State) : Host.Outcome State Fault Refusal :=
  match i with
  | .submit p f => Sys2Proof.Machine.execSubmit p f s
  | .cancel p tag => Sys2Proof.Machine.execCancel p tag s
  | .laneInspect p => Sys2Proof.Machine.execLaneInspect p s
  | .fetch p => Sys2Proof.Machine.execFetch p s
  | .fetchNormalEnd p => Sys2Proof.Machine.execFetchNormalEnd p s
  | .postedFault p => Sys2Proof.Machine.execPostedFault p s
  | .postedFaultNormalEnd p => Sys2Proof.Machine.execPostedFaultNormalEnd p s
  | .holdEnds p => Sys2Proof.Machine.execHoldEnds p s
  | .holdEndsNormalEnd p => Sys2Proof.Machine.execHoldEndsNormalEnd p s
  | .notices p => Sys2Proof.Machine.execNotices p s
  | .noticesNormalEnd p => Sys2Proof.Machine.execNoticesNormalEnd p s
  | .causes p clear => Sys2Proof.Machine.execCauses p clear s
  | .causeMask p mask => Sys2Proof.Machine.execCauseMask p mask s
  | .semTake p n => Sys2Proof.Machine.execSemTake p n s
  | .semGive p n => Sys2Proof.Machine.execSemGive p n s
  | .semBreak p n => Sys2Proof.Machine.execSemBreak p n s
  | .routeSet p f => Sys2Proof.Machine.execRouteSet p f s
  | .routeClear p index => Sys2Proof.Machine.execRouteClear p index s
  | .routeGet p index => Sys2Proof.Machine.execRouteGet p index s
  | .pollSet p f => Sys2Proof.Machine.execPollSet p f s
  | .pollStart p index => Sys2Proof.Machine.execPollStart p index s
  | .pollStop p index => Sys2Proof.Machine.execPollStop p index s
  | .pollGet p index => Sys2Proof.Machine.execPollGet p index s
  | .pollRead p index => Sys2Proof.Machine.execPollRead p index s
  | .segmentSet p f => Sys2Proof.Machine.execSegmentSet p f s
  | .segmentGet p segment => Sys2Proof.Machine.execSegmentGet p segment s
  | .segmentDisable p segment => Sys2Proof.Machine.execSegmentDisable p segment s
  | .segmentRestore p segment => Sys2Proof.Machine.execSegmentRestore p segment s
  | .statsClear p segment => Sys2Proof.Machine.execStatsClear p segment s
  | .hubInfo p => Sys2Proof.Machine.execHubInfo p s
  | .portReset p => Sys2Proof.Machine.execPortReset p s
  | .portResetNormalEnd p => Sys2Proof.Machine.execPortResetNormalEnd p s
  | .hubReset p => Sys2Proof.Machine.execHubReset p s
  | .hubResetNormalEnd p => Sys2Proof.Machine.execHubResetNormalEnd p s
  | .badFrame p kind => Sys2Proof.Machine.execBadFrame p kind s
  | .framingError p => Sys2Proof.Machine.execFramingError p s
  | .prstxnFall p => Sys2Proof.Machine.execPrstxnFall p s
  | .prstxnRise p => Sys2Proof.Machine.execPrstxnRise p s
  | .resetnFall => Sys2Proof.Machine.execResetnFall s
  | .resetnRise role0 role1 role2 => Sys2Proof.Machine.execResetnRise role0 role1 role2 s
  | .arbiterDecision g => Sys2Proof.Machine.execArbiterDecision g s
  | .holdSettlement p g => Sys2Proof.Machine.execHoldSettlement p g s
  | .releaseSettlement p g => Sys2Proof.Machine.execReleaseSettlement p g s
  | .holdDecrease e => Sys2Proof.Machine.execHoldDecrease e s
  | .holdExpiry e => Sys2Proof.Machine.execHoldExpiry e s
  | .transactionEnd g acks data => Sys2Proof.Machine.execTransactionEnd g acks data s
  | .lineConflict g acks => Sys2Proof.Machine.execLineConflict g acks s
  | .timeout g acks => Sys2Proof.Machine.execTimeout g acks s
  | .cutEnd g => Sys2Proof.Machine.execCutEnd g s
  | .lineLowInIdle g => Sys2Proof.Machine.execLineLowInIdle g s
  | .freeWindowComplete g => Sys2Proof.Machine.execFreeWindowComplete g s
  | .limitWindowEnd g => Sys2Proof.Machine.execLimitWindowEnd g s
  | .recoverySclHigh g sdaHigh => Sys2Proof.Machine.execRecoverySclHigh g sdaHigh s
  | .recoverySclTimeout g => Sys2Proof.Machine.execRecoverySclTimeout g s
  | .recoveryPulseEnd g sdaHigh => Sys2Proof.Machine.execRecoveryPulseEnd g sdaHigh s
  | .recoveryStopEnd g => Sys2Proof.Machine.execRecoveryStopEnd g s
  | .pollCountdown n => Sys2Proof.Machine.execPollCountdown n s
  | .pollDue n => Sys2Proof.Machine.execPollDue n s
  | .ageIncrease => Sys2Proof.Machine.execAgeIncrease s
  | .frameEndsEarly p => Sys2Proof.Machine.execFrameEndsEarly p s
  | .freeWindowRestart g => Sys2Proof.Machine.execFreeWindowRestart g s

end Sys2Proof.Machine
end

