-- ==== Sys2Proof/Machine/Idle.lean ====
section
/-! DEFINITION. What the hub's own agents do while no command waits: they put their events into the queue. Settlements
and decisions that are due come first (R42, R76); when there are none, a millisecond mark of the timebase passes (R63,
R96, R98, R100, R116, R122). DESIGN CHOICE (log 1). -/

namespace Sys2Proof.Machine

/-! ### The order of events taken together -/

/-- `x` put into a list at a place. -/
def insertAt (x : Instr) : Nat → List Instr → List Instr
  | 0, l => x :: l
  | _ + 1, [] => [x]
  | n + 1, y :: l => y :: insertAt x n l

/-- The events in a free order: of two events at once either may be taken first (00_scope.md section 5, log 15). -/
def freeOrder : Nat → List Instr → List Instr
  | _, [] => []
  | k, x :: l => insertAt x (Config.freeNat k % (l.length + 1)) (freeOrder (k + 1) l)

namespace State

/-! ### Events that are due without a mark -/

/-- The settlements of a port's lane heads that are due (R42). -/
def settlementsDue (s : State) (p : Port) (g : Seg) : List Instr :=
  (if (s.settleable p g .hold).isSome then [.holdSettlement p g] else []) ++
  (if (s.settleable p g .release).isSome then [.releaseSettlement p g] else [])

/-- The decision of a segment's arbiter, if one is due (R76). -/
def decisionDue (s : State) (g : Seg) : List Instr :=
  if s.mayDecide g && (s.winner g).isSome then [.arbiterDecision g] else []

/-- Every settlement and decision that is due. -/
def internalEvents (s : State) : List Instr :=
  (allPorts.flatMap fun p => allSegs.flatMap fun g => s.settlementsDue p g) ++ allSegs.flatMap s.decisionDue

/-! ### A millisecond mark -/

/-- An engine counts the mark: for the transaction limit, for the windows of CHECKING, for a recovery wait. -/
def markEngine (e : Engine) : Engine :=
  match e.state with
  | .active t => { e with state := .active { t with marks := t.marks + 1 } }
  | .checking free limit => { e with state := .checking (free + 1) (limit + 1) }
  | .recovering step marks h => { e with state := .recovering step (marks + 1) h }
  | .idle | .faulted | .disabled => e

/-- What an engine's counted marks bring: the limit expires at the nth mark after the grant (R96), the free window
completes at the second mark and the limit window ends at the 50th (R98), a recovery wait ends at the 10th (R100). -/
def engineEvents (s : State) (g : Seg) : List Instr :=
  match (s.engine g).state with
  | .active t => if t.limit ≤ t.marks then [.timeout g ((Config.freeAcks (4 * s.freeCount + g.val)).take 34)] else []
  | .checking free limit =>
    (if 2 ≤ free then [.freeWindowComplete g] else []) ++ (if 50 ≤ limit then [.limitWindowEnd g] else [])
  | .recovering _ marks _ => if 10 ≤ marks then [.recoverySclTimeout g] else []
  | .idle | .faulted | .disabled => []

/-- The countdowns and the ages (R116, R122). -/
def pollEvents (s : State) : List Instr :=
  .ageIncrease :: allPolls.flatMap fun n => if (s.poll n).state = .active then [.pollCountdown n] else []

/-- The holds at every tenth mark (R63). -/
def holdEvents (s : State) : List Instr :=
  if s.tenth = 0 then allHolds.flatMap fun i => if (s.hold i).isSome then [.holdDecrease i] else [] else []

/-- Every event of a mark, once it is counted. -/
def markEvents (s : State) : List Instr := s.pollEvents ++ s.holdEvents ++ allSegs.flatMap s.engineEvents

/-- The mark is counted. -/
def countMark (s : State) : State := { s.mapEngines fun _ => markEngine with tenth := (s.tenth + 1) % 10 }

/-- Events join the queue in a free order. -/
def enqueue (s : State) (events : List Instr) : State :=
  { s with
    pending := s.pending ++ freeOrder s.freeCount events
    freeCount := s.freeCount + events.length + 1 }

/-- One step of the hub with no command waiting. While RESETN is low nothing happens and the timebase does not run
(R163). -/
def idle (s : State) : State :=
  if s.held then s
  else if s.internalEvents.isEmpty then s.countMark.enqueue s.countMark.markEvents
  else s.enqueue s.internalEvents

end State

end Sys2Proof.Machine
end

