-- ==== Sys2Proof/WellFormed.lean ====
section
/-! DEFINITION. Which operands a command can carry on the hardware. -/

namespace Sys2Proof

/-- The write count of a SUBMIT is one byte (R1). -/
def SubmitFields.wf (f : SubmitFields) : Bool := f.data.length ≤ 255

/-- A transaction reads at most an acknowledge for the write address, 32 write bytes and the read address (R93). -/
def acksFit (acks : List Bool) : Bool := acks.length ≤ 34

/-- A transaction reads at most 32 bytes (R2). -/
def dataFits (data : List Byte) : Bool := data.length ≤ 32

/-- The check of a command's operands. -/
def Instr.wf : Instr → Bool
  | .submit _ f => f.wf
  | .badFrame _ kind => (FrameKind.ofCode kind).isNone
  | .transactionEnd _ acks data => acksFit acks && dataFits data
  | .lineConflict _ acks => acksFit acks
  | .timeout _ acks => acksFit acks
  | .cancel _ _ | .laneInspect _ | .fetch _ | .fetchNormalEnd _ | .postedFault _ | .postedFaultNormalEnd _
  | .holdEnds _ | .holdEndsNormalEnd _ | .notices _ | .noticesNormalEnd _ | .causes _ _ | .causeMask _ _
  | .semTake _ _ | .semGive _ _ | .semBreak _ _ | .routeSet _ _ | .routeClear _ _ | .routeGet _ _
  | .pollSet _ _ | .pollStart _ _ | .pollStop _ _ | .pollGet _ _ | .pollRead _ _
  | .segmentSet _ _ | .segmentGet _ _ | .segmentDisable _ _ | .segmentRestore _ _ | .statsClear _ _
  | .hubInfo _ | .portReset _ | .portResetNormalEnd _ | .hubReset _ | .hubResetNormalEnd _
  | .framingError _ | .prstxnFall _ | .prstxnRise _ | .resetnFall | .resetnRise _ _ _
  | .arbiterDecision _ | .holdSettlement _ _ | .releaseSettlement _ _ | .holdDecrease _ | .holdExpiry _
  | .cutEnd _ | .lineLowInIdle _ | .freeWindowComplete _ | .limitWindowEnd _ | .recoverySclHigh _ _
  | .recoverySclTimeout _ | .recoveryPulseEnd _ _ | .recoveryStopEnd _ | .pollCountdown _ | .pollDue _
  | .ageIncrease | .frameEndsEarly _ | .freeWindowRestart _ => true

end Sys2Proof
end

