-- ==== Sys2Proof/Safety.lean ====
section
/-! DEFINITION. What counts as a safe run, and the invariants of the hub that the manual states. -/

/-- The port a frame, a frame end or a framing event happens on; pins and settlements are neither. -/
def Sys2Proof.Instr.framePort? : Sys2Proof.Instr → Option Sys2Proof.Port
  | .prstxnFall _ | .prstxnRise _ | .holdSettlement _ _ | .releaseSettlement _ _ => none
  | c => c.port?

/-- A change of a reset pin. -/
def Sys2Proof.Instr.movesPin : Sys2Proof.Instr → Bool
  | .prstxnFall _ | .prstxnRise _ | .resetnFall | .resetnRise _ _ _ => true
  | _ => false

namespace Sys2Proof.Machine

namespace State

/-! ### What a command leaves alone -/

/-- The parts of the state. -/
inductive Part where
  | held | ports | routes | holds | arbiters | engines | due | polls | sems | tenth | freeCount | pending
  deriving DecidableEq, Repr

/-- Two states agree on a part. -/
def Agree (s t : State) : Part → Prop
  | .held => t.held = s.held
  | .ports => t.ports = s.ports
  | .routes => t.routes = s.routes
  | .holds => t.holds = s.holds
  | .arbiters => t.arbiters = s.arbiters
  | .engines => t.engines = s.engines
  | .due => t.due = s.due
  | .polls => t.polls = s.polls
  | .sems => t.sems = s.sems
  | .tenth => t.tenth = s.tenth
  | .freeCount => t.freeCount = s.freeCount
  | .pending => t.pending = s.pending

/-- From `s` to `t` every part is unchanged but those listed. -/
structure Keeps (s t : State) (changed : List Part) : Prop where
  unchanged : ∀ x, x ∉ changed → Agree s t x

/-- Every port but `p` is unchanged. -/
def KeepsOtherPorts (s t : State) (p : Port) : Prop := ∀ q, q ≠ p → t.port q = s.port q

/-- Every engine but that of segment `g` is unchanged. -/
def KeepsOtherEngines (s t : State) (g : Seg) : Prop := ∀ h, h ≠ g → t.engine h = s.engine h

/-- The reply part of the frame in progress on a port. -/
def reply (s : State) (p : Port) : Option (List Byte) := (s.port p).frame.map (·.reply)

/-- The port after a frame of kind `k` was taken that answered `reply` and left `snap` for its normal end. -/
def answered (ps : PortState) (k : FrameKind) (requestLen : Nat)
    (reply : List Byte) (snap : Snapshot) : PortState :=
  { ps with frame := some ⟨some k, requestLen, reply, snap⟩ }

/-- The frame in progress on a port is over. -/
def noFrame (s : State) (p : Port) : State := s.modifyPort p fun ps => { ps with frame := none }

/-- A frame of kind `k` was taken on port `p`, answered `reply` and left `snap` for its normal end; nothing else
changed. -/
def answers (s : State) (p : Port) (k : FrameKind) (reply : List Byte) (snap : Snapshot := .none) : State :=
  s.modifyPort p fun ps => answered ps k k.requestLen reply snap

/-! ### What one event does to the blocks it reaches -/

/-- The posted ones among the requests that one event completes with a failure status, entered in order into a
posted-fault record (R135). -/
def faultsEntered (old : Option PostedFault) (st : Status) : List Request → Option PostedFault
  | [] => old
  | r :: rest =>
    match old with
    | none => some ⟨r.tag, r.route, r.key, st, 0, min rest.length 255⟩
    | some f => some { f with further := min (f.further + rest.length + 1) 255 }

/-- From `ps` to `ps'` the open requests that `sel` picks completed with the status, in admission order: the non-posted
ones into the result queue, the posted ones into the posted-fault record; a port that is IN_RESET is given neither
(R28, R43, R52, R135, R159). -/
structure Drained (sel : Request → Bool) (st : Status) (ps ps' : PortState) : Prop where
  reqs : ps'.reqs = ps.reqs.filter fun r => !sel r
  results : ps'.results = ps.results ++
    if ps.inReset then []
    else ((ps.reqs.filter sel).filter fun r => !r.posted).map fun r => ⟨r.tag, r.kind, st, 0, [], none⟩
  fault : ps'.postedFault =
    if ps.inReset then ps.postedFault
    else faultsEntered ps.postedFault st ((ps.reqs.filter sel).filter fun r => r.posted)
  kept : ps'.role = ps.role ∧ ps'.inReset = ps.inReset ∧ ps'.framingFlag = ps.framingFlag ∧
    ps'.framingCount = ps.framingCount ∧ ps'.mask = ps.mask
  reply : ps'.frame.map (·.reply) = ps.frame.map (·.reply)

/-- The hold-end records that the end of a segment's holds gives a port, in ascending entry number (R67). -/
def holdsLost (s : State) (g : Seg) (q : Port) : List HoldEnd :=
  allHolds.filterMap fun i =>
    match s.hold i with
    | some e => if e.key.seg = g ∧ e.holder = q then some ⟨e.key, .segmentOffline⟩ else none
    | none => none

/-- Hold-end records joined a port's list up to its four places; the others were counted as lost (R137). -/
def EndsAdded (ps ps' : PortState) (ends : List HoldEnd) : Prop :=
  if ps.inReset = true then ps'.holdEnds = ps.holdEnds ∧ ps'.lostEnds = ps.lostEnds
  else
    ps'.holdEnds = ps.holdEnds ++ ends.take (4 - ps.holdEnds.length) ∧
    ps'.lostEnds =
      if ends.length ≤ 4 - ps.holdEnds.length then ps.lostEnds
      else min (ps.lostEnds + (ends.length - (4 - ps.holdEnds.length))) 255

/-- The effects of a segment's going offline on every other block (R102). -/
structure OfflineEffects (s t : State) (g : Seg) : Prop where
  requests : ∀ q, Drained (fun r => r.key.seg == g && r.state != .inFlight) .segmentOffline (s.port q) (t.port q)
  ends : ∀ q, EndsAdded (s.port q) (t.port q) (s.holdsLost g q)
  notices : ∀ q, (t.port q).notices =
    if (s.port q).inReset then (s.port q).notices
    else { (s.port q).notices with seg := (s.port q).notices.seg ||| BitVec.twoPow 4 g.val }
  holds : ∀ i, t.hold i = (s.hold i).filter fun e => e.key.seg != g
  dueEmpty : t.dueOf g = []
  otherDue : ∀ h, h ≠ g → t.dueOf h = s.dueOf h
  otherPolls : ∀ n, n ∉ s.dueOf g → t.poll n = s.poll n
  duePolls : (s.dueOf g).Nodup → ∀ n ∈ s.dueOf g, t.poll n =
    if (s.poll n).discard then { s.poll n with mark := .none, discard := false }
    else
      { s.poll n with
        mark := .none
        result := { (s.poll n).result with
          status := some .segmentOffline, sequence := (s.poll n).result.sequence + 1 } }
  otherEngines : KeepsOtherEngines s t g
  rest : Keeps s t [.ports, .holds, .due, .polls, .engines]

/-- The effects of a route change sweep of index `i` (R27 to R31). -/
structure SweepEffects (s t : State) (i : RouteIdx) : Prop where
  requests : ∀ q,
    Drained (fun r => r.route == some i && r.state != .inFlight) .routeChanged (s.port q) (t.port q)
  records : ∀ q, (t.port q).holdEnds = (s.port q).holdEnds ∧ (t.port q).lostEnds = (s.port q).lostEnds ∧
    (t.port q).notices = (s.port q).notices
  holds : ∀ k, t.hold k = (s.hold k).map fun e =>
    { e with waiters := e.waiters.filter fun w =>
        !(s.port w.port).reqs.any fun r => r.route == some i && r.state == .waitingHold && r.tag == w.tag }
  due : ∀ g, t.dueOf g = (s.dueOf g).filter fun n =>
    !((s.poll n).config.route == i && (s.poll n).state == .active)
  polls : ∀ n, t.poll n =
    if (s.poll n).config.route = i ∧ (s.poll n).state = .active then
      { s.poll n with
        state := .suspended
        mark := if (s.poll n).mark = .queued then .none else (s.poll n).mark
        result := { (s.poll n).result with
          status := some .routeChanged, sequence := (s.poll n).result.sequence + 1 } }
    else s.poll n
  rest : Keeps s t [.ports, .holds, .due, .polls]

/-- The HOLDs of the waiters that one event serves complete HOLD_GRANTED with the waiters' limits, in the port's
admission order (R43, R57, R131). -/
def granted (ps : PortState) (served : List Waiter) : PortState :=
  (ps.reqs.filter fun r => served.any fun w => w.tag == r.tag).foldl
    (fun ps r => ps.complete r
      { status := .holdGranted, holdRemaining := (served.find? fun w => w.tag == r.tag).map (·.limit) }) ps

/-- The waiters of port `q` that a port reset of `p` serves, in ascending entry number: the first waiter of another
port on each entry that `p` holds (R68). -/
def servedBy (s : State) (p q : Port) : List Waiter :=
  allHolds.filterMap fun i =>
    match s.hold i with
    | some e =>
      if e.holder = p then
        match e.waiters.filter fun w => w.port != p with
        | w :: _ => if w.port = q then some w else none
        | [] => none
      else none
    | none => none

/-- What is left of a transaction that is cut, by the element it stands in (the table of R109): the rest up to the byte
boundary, then the stop. -/
inductive CutShort : List BusElement → List BusElement → Prop
  | start (b : Byte) (more : List BusElement) : CutShort (.start :: .address b :: more) [.start, .address b, .stop]
  | address (b : Byte) (more : List BusElement) : CutShort (.address b :: more) [.address b, .stop]
  | write (b : Byte) (more : List BusElement) : CutShort (.write b :: more) [.write b, .stop]
  | restart (b : Byte) (more : List BusElement) :
    CutShort (.restart :: .address b :: more) [.restart, .address b, .stop]
  | read (acked : Bool) (more : List BusElement) : CutShort (.read acked :: more) [.read false, .stop]
  | stop (more : List BusElement) : CutShort (.stop :: more) [.stop]

/-- What a transaction had before it at its grant or at its cut: all its elements, or what a cut left of them (R93,
R109). -/
def AheadSound (x : Transaction) : Prop :=
  match x.carrier with
  | .port _ | .poll _ => x.ahead = x.work.elements
  | .cut _ => ∃ k, CutShort (x.work.elements.drop k) x.ahead

/-- From `x` to `y` a transaction was cut: it is nobody's, keeps its speed, its limit and its marks, and stood somewhere
among its elements, of which what R109 says is left. `since` is the model's own (log 7). -/
def IsCut (x y : Transaction) (c : CutCause) (since : Nat) : Prop :=
  y = ⟨.cut c, x.work, y.ahead, x.speed, x.limit, x.marks, since⟩ ∧
    (AheadSound x → ∃ k, CutShort (x.ahead.drop k) y.ahead)

/-- The effects of a port reset of port `p` (R160). -/
structure PortResetEffects (s t : State) (p : Port) : Prop where
  own : t.port p =
    ⟨(s.port p).role, (s.port p).inReset, (s.port p).frame, false, 0, 0x37, [], [], none, [], 0, ⟨0, 0, 0, 0⟩⟩
  others : ∀ q, q ≠ p → t.port q =
    (allSems.filter fun n => (s.sem n).owner == some p && (s.sem n).interest.getLsbD q.val).foldl
      (fun ps n => ps.addNotices (.ofFreed n)) (granted (s.port q) (s.servedBy p q))
  holds : ∀ i, t.hold i =
    match s.hold i with
    | some e =>
      if e.holder = p then
        match e.waiters.filter fun w => w.port != p with
        | w :: ws => some ⟨e.key, w.port, w.limit, ws⟩
        | [] => none
      else some { e with waiters := e.waiters.filter fun w => w.port != p }
    | none => none
  sems : ∀ n, t.sem n =
    if (s.sem n).owner = some p then ⟨none, 0⟩
    else { s.sem n with interest := (s.sem n).interest &&& ~~~(BitVec.twoPow 3 p.val) }
  arbiters : ∀ g, t.arbiter g =
    { s.arbiter g with deficits := (s.arbiter g).deficits.set p.val 0 (by omega) }
  cut : ∀ g x, (s.engine g).state = .active x → x.carrier = .port p →
    ∃ y, IsCut x y .portReset t.freeCount ∧ t.engine g = { s.engine g with state := .active y }
  notCut : ∀ g, (∀ x, (s.engine g).state = .active x → x.carrier ≠ .port p) → t.engine g = s.engine g
  rest : Keeps s t [.ports, .engines, .holds, .arbiters, .sems, .freeCount]

/-- A segment that a HUB RESET takes to DISABLED by its pending disable (R112, R164). -/
def endsDisabled (s : State) (g : Seg) : Bool :=
  (s.engine g).disablePending && match (s.engine g).state with
    | .active _ | .recovering _ _ _ => true
    | .idle | .checking _ _ | .faulted | .disabled => false

/-- The segment notices of a HUB RESET (R112, R145). -/
def hubResetNotices (s : State) : BitVec 4 :=
  BitVec.ofBool (s.endsDisabled 3) ++ BitVec.ofBool (s.endsDisabled 2) ++ BitVec.ofBool (s.endsDisabled 1) ++
    BitVec.ofBool (s.endsDisabled 0)

/-- Where a HUB RESET leaves an engine's state (R112); an engine in the wait of R100 step 1 goes at once (log 11). -/
def HubResetState (before after : EngineState) (since : Nat) : Prop :=
  match before with
  | .idle => after = .checking 0 0
  | .checking _ _ => after = .checking 0 0
  | .faulted => after = .checking 0 0
  | .disabled => after = .disabled
  | .active x => ∃ y, IsCut x y .hubReset since ∧ after = .active y
  | .recovering .waitScl _ _ => after = .checking 0 0
  | .recovering (.pulse n) marks _ => after = .recovering (.pulse n) marks true
  | .recovering .stop marks _ => after = .recovering .stop marks true

/-- The effects of a HUB RESET (R164). -/
structure HubResetEffects (s t : State) : Prop where
  ports : ∀ q, { t.port q with frame := none } =
    ⟨(s.port q).role, (s.port q).inReset, none, false, 0, 0x37, [], [], none, [], 0,
      ⟨0, if (s.port q).inReset then 0 else s.hubResetNotices, 0, 0⟩⟩
  frames : ∀ q, (t.port q).frame = (s.port q).frame.map fun f =>
    { f with snapshot := if f.snapshot = .hubReset then .hubReset else .none }
  holds : ∀ i, t.hold i = none
  sems : ∀ n, t.sem n = ⟨none, 0⟩
  arbiters : ∀ g, t.arbiter g = { s.arbiter g with deficits := #v[0, 0, 0, 0], current := 0 }
  engines : ∀ g, HubResetState (s.engine g).state (t.engine g).state t.freeCount ∧ t.engine g =
    { s.engine g with
      state := (t.engine g).state
      tries := 0
      faultReason := .none
      faultCount := 0
      stats := ⟨0, 0, 0, 0, 0, 0, 0⟩ }
  polls : ∀ n, t.poll n =
    ⟨(s.poll n).config, (s.poll n).state, (s.poll n).config.period, .none, false, 0,
      ⟨none, 0, false, List.replicate (s.poll n).config.readLen 0, 65535⟩⟩
  due : ∀ g, t.dueOf g = []
  rest : Keeps s t [.ports, .holds, .sems, .arbiters, .engines, .polls, .due, .freeCount]

/-- The values a pin reset leaves, chapter by chapter (R34, R50, R69, R87, R111, R130, R142, R145, R153); roles and
PRSTxN levels are the pins'. That the ten-millisecond marks are counted from here is the model's choice (log 22). -/
structure PinResetValues (t : State) (roles : Port → Role) (low : Port → Bool) : Prop where
  held : t.held = false
  ports : ∀ q, t.port q = ⟨roles q, low q, none, false, 0, 0x37, [], [], none, [], 0, ⟨0, 0, 0, 0⟩⟩
  routes : ∀ i, t.route i = ⟨false, 0x08, ⟨0, 0x08⟩, #v[.none, .none, .none], false, 10⟩
  holds : ∀ i, t.hold i = none
  arbiters : ∀ g, t.arbiter g = ⟨.priority, #v[0, 1, 2, 3], #v[64, 64, 64, 64], #v[0, 0, 0, 0], 0⟩
  engines : ∀ g, t.engine g = ⟨.checking 0 0, false, 0, .none, 0, ⟨0, 0, 0, 0, 0, 0, 0⟩, .khz100, 25⟩
  due : ∀ g, t.dueOf g = []
  polls : ∀ n, t.poll n = ⟨⟨0, 0, 0, 0, 1, 1000, 0⟩, .off, 1000, .none, false, 0, ⟨none, 0, false, [0], 65535⟩⟩
  sems : ∀ n, t.sem n = ⟨none, 0⟩
  tenth : t.tenth = 0

/-! ### What an idle hub does -/

/-- A settlement or a decision that is due at once: the head of a lane is a settleable HOLD or RELEASE (R42), or an
arbiter may decide and has a winner (R76). -/
def DueNow (s : State) : Instr → Prop
  | .holdSettlement p g => ∃ r, (s.port p).readyHead g = some r ∧ r.kind = .hold
  | .releaseSettlement p g => ∃ r, (s.port p).readyHead g = some r ∧ r.kind = .release
  | .arbiterDecision g =>
    (s.engine g).state = .idle ∧ (s.engine g).disablePending = false ∧ s.winner g ≠ none
  | _ => False

/-- An engine after a millisecond mark: the mark counts for the transaction limit, for both windows of CHECKING and for
a recovery wait (R96, R98, R100). -/
def afterMark (e : Engine) : Engine :=
  { e with
    state := match e.state with
      | .active x => .active { x with marks := x.marks + 1 }
      | .checking free limit => .checking (free + 1) (limit + 1)
      | .recovering step marks h => .recovering step (marks + 1) h
      | st => st }

/-- What a mark brings, once it is counted: every age increases (R122), every ACTIVE entry counts down (R116), at a
tenth mark every used hold decreases (R63); a transaction limit n expires at the nth mark after the grant (R96), the free
window completes at the second mark, the limit window ends at the 50th (R98), a recovery wait at the 10th (R100). The
acknowledge bits of a TIMEOUT are left out. -/
def MarkBrings (t : State) : Instr → Prop
  | .ageIncrease => True
  | .pollCountdown n => (t.poll n).state = .active
  | .holdDecrease i => t.tenth = 0 ∧ t.hold i ≠ none
  | .timeout g acks => acks = [] ∧ ∃ x, (t.engine g).state = .active x ∧ x.limit ≤ x.marks
  | .freeWindowComplete g => ∃ free limit, (t.engine g).state = .checking free limit ∧ 2 ≤ free
  | .limitWindowEnd g => ∃ free limit, (t.engine g).state = .checking free limit ∧ 50 ≤ limit
  | .recoverySclTimeout g => ∃ step marks h, (t.engine g).state = .recovering step marks h ∧ 10 ≤ marks
  | _ => False

/-- A command without the acknowledge bits of a TIMEOUT, which are free at a mark (log 27). -/
def withoutAcks : Instr → Instr
  | .timeout g _ => .timeout g []
  | c => c

/-! ### The tables of chapters 1 and 5 -/

/-- Write count and read length match the kind code (the table of R6). -/
def lengthsMatch (kind w r : Nat) : Bool :=
  (kind == 1 && w == 0 && 1 ≤ r && r ≤ 32) || (kind == 2 && 1 ≤ w && w ≤ 32 && r == 0) ||
  (kind == 3 && 1 ≤ w && w ≤ 32 && 1 ≤ r && r ≤ 32) || (4 ≤ kind && kind ≤ 6 && w == 0 && r == 0)

/-- The right of an entry permits a kind code with a write count (the table of R10). -/
def rightAllows (right : Right) (kind w : Nat) : Bool :=
  match right with
  | .none => false
  | .read => kind == 1 || kind == 4 || (kind == 3 && w ≤ 2)
  | .readWrite => true

/-- The engine is neither FAULTED nor DISABLED and has no disable pending (R12). -/
def takesRequests (e : Engine) : Bool := e.state != .faulted && e.state != .disabled && !e.disablePending

/-- The key and the route index that check 5 resolves (R9). -/
def resolved (s : State) (f : SubmitFields) : Option (Key × Option RouteIdx) :=
  if f.mode = 0x00 then
    ((List.finRange 32).find? fun i => (s.route i).valid && (s.route i).aliasAddr == f.aliasByte.setWidth 7).map
      fun i => ((s.route i).key, some i)
  else if h : f.mode = 0x01 ∧ f.segment.toNat < 4 ∧ 0x08 ≤ f.target.toNat % 128 ∧ f.target.toNat % 128 ≤ 0x77 then
    some (⟨⟨f.segment.toNat, h.2.1⟩, f.target.setWidth 7⟩, none)
  else none

/-- The ten checks of R5 in order, each with its code; check 5 has a line for each of its two codes. The lines after
check 5 read what it resolves, and hold where it resolves nothing. -/
def submitChecks (s : State) (p : Port) (f : SubmitFields) : List (Bool × ReplyStatus) :=
  let ps := s.port p
  let kind := f.kind.toNat
  let w := f.data.length
  let posted := f.flags.getLsbD 0
  let key := (s.resolved f).map (·.1)
  let entry := (s.resolved f).bind (·.2)
  [(1 ≤ kind && kind ≤ 6, .badKind),
   (lengthsMatch kind w f.readLen.toNat, .badLength),
   ((!posted || kind == 2) && (!f.flags.getLsbD 2 || kind ≤ 4), .badFlags),
   (!(ps.reqs.any (·.tag == f.tag) || ps.results.any (·.tag == f.tag)), .tagInUse),
   (f.mode != 0x01 || ps.role == .supervisor, .notPermitted),
   ((s.resolved f).isSome, .noRoute),
   (entry.all fun i => rightAllows (s.route i).rights[p] kind w, .notPermitted),
   (!posted || entry.all fun i => (s.route i).posted, .badFlags),
   (key.all fun k => takesRequests (s.engine k.seg), .segmentOffline),
   (ps.reqs.length < 16, .queueFull),
   (posted || ps.results.length + (ps.reqs.filter (·.reservation)).length < 16, .resultSpace)]

/-- The first check that fails decides the code (R5). -/
def submitCode (s : State) (p : Port) (f : SubmitFields) : Option ReplyStatus :=
  ((s.submitChecks p f).find? fun c => !c.1).map (·.2)

/-- A contender with a candidate gains its quantum when it becomes current (R82 step 3). -/
def arrive (costs : Vector (Option Nat) 4) (quanta deficits : Vector Nat 4) (c : Contender) : Vector Nat 4 :=
  if costs[c].isSome then deficits.set c (deficits[c] + quanta[c]) else deficits

/-- The procedure of R82: from deficits and a current contender to the deficits and the contender that wins, before
the win is charged. -/
inductive Rotation (costs : Vector (Option Nat) 4) (quanta : Vector Nat 4) :
    Vector Nat 4 → Contender → Vector Nat 4 → Contender → Prop
  | wins {d : Vector Nat 4} {c : Contender} {k : Nat} (candidate : costs[c] = some k) (covers : k ≤ d[c]) :
      Rotation costs quanta d c d c
  | tooCostly {d d' : Vector Nat 4} {c c' : Contender} {k : Nat} (candidate : costs[c] = some k) (short : d[c] < k)
      (next : Rotation costs quanta (arrive costs quanta d (c + 1)) (c + 1) d' c') : Rotation costs quanta d c d' c'
  | noCandidate {d d' : Vector Nat 4} {c c' : Contender} (none : costs[c] = Option.none)
      (next : Rotation costs quanta (arrive costs quanta (d.set c 0) (c + 1)) (c + 1) d' c') :
      Rotation costs quanta d c d' c'

/-! ### Invariants -/

/-- What the manual says of one port's requests and results: at most 16 open requests, stored results plus
reservations at most 16, a reservation for exactly the open non-posted requests (R13, R14), and no tag twice among the
open requests and the stored results (R8). -/
def PortBounds (ps : PortState) : Prop :=
  ps.reqs.length ≤ 16 ∧ ps.results.length + ps.reservations ≤ 16 ∧
    (∀ r ∈ ps.reqs, r.reservation = !r.posted) ∧
    (ps.reqs.map (·.tag) ++ ps.results.map (·.tag)).Nodup

/-- The bounds of every port (R8, R13, R14). -/
def RequestBounds (s : State) : Prop := ∀ p, PortBounds (s.port p)

/-- No two valid route entries share an alias (R21). -/
def AliasesUnique (s : State) : Prop :=
  ∀ i j, (s.route i).valid = true → (s.route j).valid = true →
    (s.route i).aliasAddr = (s.route j).aliasAddr → i = j

/-- Semaphore 0 is owned only by a SUPERVISOR port; the interest set of a free semaphore is empty and the owner is
never in its own semaphore's interest set (R146). -/
def SemaphoresSound (s : State) : Prop :=
  (∀ p, (s.sem 0).owner = some p → (s.port p).role = .supervisor) ∧
  ∀ n, ((s.sem n).owner = none → (s.sem n).interest = 0) ∧
    ∀ p, (s.sem n).owner = some p → (s.sem n).interest.getLsbD p.val = false

/-- A key appears in at most one used hold entry (R53). -/
def HoldKeysUnique (s : State) : Prop :=
  ∀ i j a b, s.hold i = some a → s.hold j = some b → a.key = b.key → i = j

/-- A disable is pending only on an ACTIVE engine or on one that gives a recovery pulse or stop; recovery tries are 0
to 2, the fault count 0 to 255 (R88, R103); what a transaction has before it is what R93 and R109 give. -/
def EnginesSound (s : State) : Prop :=
  ∀ g, (s.engine g).tries ≤ 2 ∧ (s.engine g).faultCount ≤ 255 ∧
    (∀ x, (s.engine g).state = .active x → AheadSound x ∧ x.ahead ≠ []) ∧
    ((s.engine g).disablePending = true →
      match (s.engine g).state with
      | .active _ | .recovering (.pulse _) _ _ | .recovering .stop _ _ => True
      | _ => False)

/-- What bounds the cost of every candidate at 65 (R2, R113). -/
def CostsBounded (s : State) : Prop :=
  (∀ p, ∀ r ∈ (s.port p).reqs, r.writeData.length ≤ 32 ∧ r.readLen ≤ 32) ∧
  ∀ n, (s.poll n).config.readLen ≤ 8

/-- The ranking names each contender once; quanta are 8 to 255; no deficit exceeds its quantum plus 64, nor 64 when its contender is not the current one; in
PRIORITY mode the deficits are 0 and the current contender is port 0 (R71, R83). -/
def ArbiterSound (a : Arbiter) : Prop :=
  a.ranking.toList.Nodup ∧
  (∀ c : Contender, 8 ≤ a.quanta[c] ∧ a.quanta[c] ≤ 255 ∧ a.deficits[c] ≤ a.quanta[c] + 64 ∧
    (c ≠ a.current → a.deficits[c] ≤ 64)) ∧
  (a.mode = .priority → a.current = 0 ∧ ∀ c : Contender, a.deficits[c] = 0)

/-- The bounds of every arbiter, with what they rest on (R71, R83). -/
def DeficitBounds (s : State) : Prop := CostsBounded s ∧ ∀ g, ArbiterSound (s.arbiter g)

/-- The due lists of all segments, one after another. -/
def allDue (s : State) : List PollIdx := s.dueOf 0 ++ s.dueOf 1 ++ s.dueOf 2 ++ s.dueOf 3

/-- Engine `g` carries poll `n`. -/
def carriesPoll (s : State) (g : Seg) (n : PollIdx) : Bool :=
  match (s.engine g).state with
  | .active t => t.carrier == .poll n
  | _ => false

/-- A poll entry appears at most once among all due lists and the transactions in flight, and its mark tells where
(R117): it is QUEUED exactly while it stands in a due list, and IN_FLIGHT while an engine carries it. The discard flag
is set only while the mark is IN_FLIGHT (R114). -/
def DueSound (s : State) : Prop :=
  (∀ n, (s.poll n).discard = true → (s.poll n).mark = .inFlight) ∧
  s.allDue.Nodup ∧ (∀ n, n ∈ s.allDue ↔ (s.poll n).mark = .queued) ∧
  (∀ g n, s.carriesPoll g n = true → (s.poll n).mark = .inFlight) ∧
  ∀ g h n, s.carriesPoll g n = true → s.carriesPoll h n = true → g = h

/-- Within a lane only the head can be IN_FLIGHT or WAITING_HOLD (R38). -/
def LanesSound (s : State) : Prop := ∀ p g, ∀ r ∈ ((s.port p).lane g).tail, r.state = .queued

/-- A port has a request IN_FLIGHT on a segment exactly while the segment's engine carries the port's transaction
(R88, R92, R94), and only bus requests are IN_FLIGHT (R37). -/
def InFlightSound (s : State) : Prop :=
  (∀ p g, (∃ r ∈ (s.port p).reqs, r.key.seg = g ∧ r.state = .inFlight) ↔
    ∃ x, (s.engine g).state = .active x ∧ x.carrier = .port p) ∧
  ∀ p, ∀ r ∈ (s.port p).reqs, r.state = .inFlight → r.kind.usesBus = true

/-- The waiters of a hold entry never name its holder and never one port twice (R54); each is an open HOLD of its port
in WAITING_HOLD on the entry's key with the limit recorded at admission, and every request in WAITING_HOLD is among
the waiters of its key's entry (R37, R54). -/
def WaitersSound (s : State) : Prop :=
  (∀ i e, s.hold i = some e →
    (e.waiters.map (·.port)).Nodup ∧ e.holder ∉ e.waiters.map (·.port) ∧
    ∀ w ∈ e.waiters, ∃ r ∈ (s.port w.port).reqs, r.tag = w.tag ∧ r.state = .waitingHold ∧ r.kind = .hold ∧
      r.key = e.key ∧ r.holdLimit.getD 1 = w.limit) ∧
  ∀ p, ∀ r ∈ (s.port p).reqs, r.state = .waitingHold →
    ∃ i e, s.hold i = some e ∧ e.key = r.key ∧ ∃ w ∈ e.waiters, w.port = p ∧ w.tag = r.tag

/-- A port that is IN_RESET has no open request and empty collections, owns no semaphore, stands in no interest set and
holds no key (R49, R68, R145, R152, R159). -/
def ResetPortsEmpty (s : State) : Prop :=
  s.held = false → ∀ p, (s.port p).inReset = true →
    (s.port p).frame = none ∧ (s.port p).reqs = [] ∧ (s.port p).results = [] ∧ (s.port p).postedFault = none ∧
    (s.port p).holdEnds = [] ∧ (s.port p).lostEnds = 0 ∧ (s.port p).notices = ⟨0, 0, 0, 0⟩ ∧
    (∀ n, (s.sem n).owner ≠ some p ∧ (s.sem n).interest.getLsbD p.val = false) ∧
    ∀ i e, s.hold i = some e → e.holder ≠ p ∧ p ∉ e.waiters.map (·.port)

/-- While a segment is offline no request of its lanes is open, no poll is due on it and no key of it is held
(R52, R67, R102). -/
def OfflineSegmentsIdle (s : State) : Prop :=
  ∀ g, s.offline g = true →
    (∀ p, (s.port p).lane g = []) ∧ s.dueOf g = [] ∧ ∀ i e, s.hold i = some e → e.key.seg ≠ g

end State

end Sys2Proof.Machine
end

