-- ==== Sys2Proof/Certificates/Slice0/Obligations.lean ====
section
/-! DEFINITION. The statements about the hub that the provers settle. Numbers after "log" are rows of
notes/assumptions/. -/

section

open Sys2Proof Sys2Proof.Machine Sys2Proof.Machine.State

/-! ### The step, the queue and resets -/

/-- A step takes the command at the front of the queue and runs it on the state with the queue's rest. -/
def Obligations.StepRunsTheFrontCommand : Prop :=
  ∀ (c : Instr) (rest : List Instr) (s : State),
    step { s with pending := c :: rest } = exec c { s with pending := rest }

/-- The model's choice of what an idle hub does (log 1, log 15): nothing while RESETN is low; else the settlements and
decisions that are due join the queue, each once; when none is due a millisecond mark is counted and its events join the
queue, each once: those of R63 at a tenth mark (log 22), of R96 at the nth mark after the grant, of R98 at the second and
the 50th mark, of R100 at the 10th, of R116 and R122 at every mark. The acknowledge bits of a TIMEOUT are free
(log 27). -/
def Obligations.IdleStepFillsTheQueue : Prop :=
  ∀ s : State, s.pending = [] →
    (s.held = true → step s = .next s) ∧
    (s.held = false → (∃ c, DueNow s c) →
      ∃ t, step s = .next t ∧ Keeps s t [.pending, .freeCount] ∧ t.pending.Nodup ∧
        ∀ c, c ∈ t.pending ↔ DueNow s c) ∧
    (s.held = false → (∀ c, ¬DueNow s c) →
      ∃ t, step s = .next t ∧ Keeps s t [.engines, .tenth, .pending, .freeCount] ∧
        t.tenth = (s.tenth + 1) % 10 ∧ (∀ g, t.engine g = afterMark (s.engine g)) ∧
        (t.pending.map withoutAcks).Nodup ∧ (∀ c, c ∈ t.pending.map withoutAcks ↔ MarkBrings t c) ∧
        ∀ c ∈ t.pending, c.wf = true)

/-- Every command answers a next state and leaves the queue alone (log 2): the hub has no event that stops it. While
RESETN is low nothing is taken but changes of the reset pins; on a port that is IN_RESET no frame, frame end or framing
error is taken (R159, R163). -/
def Obligations.EveryCommandGoesOnAndResetTakesNone : Prop :=
  (∀ (c : Instr) (s : State), ∃ t, exec c s = .next t ∧ t.pending = s.pending) ∧
  ((∀ (c : Instr) (s : State), s.held = true → c.movesPin = false → exec c s = .next s) ∧
   ∀ (c : Instr) (p : Port) (s : State), c.framePort? = some p → (s.port p).inReset = true → exec c s = .next s)

/-- RESETN low abandons every frame and, by the model's choice, keeps the rest (log 6); RESETN rising, with or without a
fall before it (log 6), leaves the pin-reset values with the roles sampled and each port RUNNING or IN_RESET by its
PRSTxN level; State.reset has the pin-reset values, with roles and PRSTxN levels of the model's choice (log 4, log 5).
That the tenth marks are counted from the reset is the model's choice too (log 22). -/
def Obligations.PinResetLeavesTheResetValues : Prop :=
  (∀ s : State, ∃ t, exec .resetnFall s = .next t ∧ Keeps s t [.held, .ports] ∧ t.held = true ∧
    ∀ p, t.port p = { s.port p with frame := none }) ∧
  (∀ (s : State) (high : Vector Bool 3), ∃ t, exec (.resetnRise high[0] high[1] high[2]) s = .next t ∧
    PinResetValues t (fun p => if high[p] then .supervisor else .member) (fun p => (s.port p).inReset)) ∧
  ∃ roles low, PinResetValues State.reset roles low

/-- The effects of a port reset on every block (R160). -/
def Obligations.PortResetEffectsOnEveryBlock : Prop :=
  ∀ (s : State) (p : Port), PortResetEffects s (s.resetPort p) p

/-- The request part of PORT RESET is answered OK with no check; that of HUB RESET checks the role and then the claim;
neither acts before its normal end (R161, R164). The normal end of a PORT RESET frame and the fall of PRSTxN on a RUNNING
port apply the port-reset effects; the first leaves the port RUNNING, the second IN_RESET with its frame abandoned. The
rise of PRSTxN only returns the port to RUNNING (R159). That a rise on a RUNNING port does nothing, and that a fall on a
port that is IN_RESET or while RESETN is low only sets the level, are the model's choice (log 2, log 5, log 6). -/
def Obligations.ResetFramesAndPinsOfAPort : Prop :=
  ((∀ (s : State) (p : Port) (f : Frame), s.running p = true → (s.port p).frame = some f → f.kind = some .portReset →
     exec (.portResetNormalEnd p) s = .next ((s.noFrame p).resetPort p)) ∧
   (∀ (s : State) (p : Port), s.running p = true → exec (.prstxnFall p) s =
     .next ((s.resetPort p).modifyPort p fun ps => { ps with inReset := true, frame := none })) ∧
   (∀ (s : State) (p : Port), s.running p = false → exec (.prstxnFall p) s =
     .next (s.modifyPort p fun ps => { ps with inReset := true, frame := none })) ∧
   (∀ (s : State) (p : Port), (s.port p).inReset = true → exec (.prstxnRise p) s =
     .next (s.modifyPort p fun ps => { ps with inReset := false, frame := none })) ∧
   ∀ (s : State) (p : Port), (s.port p).inReset = false → exec (.prstxnRise p) s = .next s) ∧
  (∀ (s : State) (p : Port), s.running p = true →
     exec (.portReset p) s = .next (s.answers p .portReset [0x00]) ∧
     ((s.port p).role = .member → exec (.hubReset p) s = .next (s.answers p .hubReset [0x12])) ∧
     ((s.port p).role = .supervisor → (s.sem 0).owner ≠ some p →
       exec (.hubReset p) s = .next (s.answers p .hubReset [0x13])) ∧
     ((s.port p).role = .supervisor → (s.sem 0).owner = some p →
       exec (.hubReset p) s = .next (s.answers p .hubReset [0x00] .hubReset)))

/-- At the normal end of a HUB RESET that passed its checks the working state of every block is reset (R164), transactions
in flight are cut (R109), and a reading frame in progress has nothing left to remove (R133); a HUB RESET that was refused
does nothing at its normal end. The model's readings: a segment with a pending disable is noticed in this event (log 9);
an engine in the first wait of RECOVERING goes to CHECKING at once (log 11); a frame in progress keeps its reply
(log 19). -/
def Obligations.HubResetEffectsOnEveryBlock : Prop :=
  ∀ (s : State) (p : Port) (f : Frame), s.running p = true → (s.port p).frame = some f → f.kind = some .hubReset →
    (f.snapshot = .hubReset →
      ∃ t, exec (.hubResetNormalEnd p) s = .next t ∧ HubResetEffects (s.noFrame p) t) ∧
    (f.snapshot ≠ .hubReset → exec (.hubResetNormalEnd p) s = .next (s.noFrame p))

/-! ### Frames -/

/-- Which commands the bytes of one frame are (R154 to R158): no byte or an incomplete request part is a framing error,
an unknown kind is BAD_FRAME, and a complete request part is the frame's command, followed by what its normal end does
or by its early end. -/
def Obligations.FramesAreCutAsTheirBytesSay : Prop :=
  (∀ p : Port, frameCommands p [] = [.framingError p]) ∧
  (∀ (p : Port) (kind : Byte) (rest : List Byte), FrameKind.ofCode kind = none →
    frameCommands p (kind :: rest) = .badFrame p kind :: if rest.length < 2 then [.frameEndsEarly p] else []) ∧
  (∀ (p : Port) (k : FrameKind) (rest : List Byte), rest.length + 1 < k.requestLen →
    frameCommands p (k.code :: rest) = [.framingError p]) ∧
  (∀ (p : Port) (head data : List Byte) (w : Byte), head.length = 9 → data.length < w.toNat →
    frameCommands p (FrameKind.submit.code :: head ++ w :: data) = [.framingError p]) ∧
  (∀ (p : Port) (k : FrameKind) (body after : List Byte), k ≠ .submit → body.length + 1 = k.requestLen →
    frameCommands p (k.code :: body ++ after) =
      k.command p (k.code :: body) ::
        if after.length < 1 + k.replyLen then [.frameEndsEarly p] else k.normalEnd p) ∧
  ∀ (p : Port) (head data after : List Byte) (w : Byte), head.length = 9 → data.length = w.toNat →
    frameCommands p (FrameKind.submit.code :: head ++ w :: data ++ after) =
      FrameKind.submit.command p (FrameKind.submit.code :: head ++ w :: data) ::
        if after.length < 3 then [.frameEndsEarly p] else []

/-- The request bytes of a frame and the command read from them agree, for every frame command with every operand: no
byte of a layout of chapter 11 is dropped or displaced. -/
def Obligations.FrameBytesRoundTrip : Prop :=
  ∀ (c : Instr) (p : Port) (bytes after : List Byte), c.wf = true → c.port? = some p → c.requestBytes = some bytes →
    ∃ k : FrameKind, bytes.head? = some k.code ∧
      (1 + k.replyLen ≤ after.length → frameCommands p (bytes ++ after) = c :: k.normalEnd p)

/-- A framing error sets the framing flag and counts, stopping at 255, and does nothing else; an unknown kind does the
same and is answered BAD_FRAME; an early end only ends the frame (R156, R157, R158). -/
def Obligations.FramingErrorsAreCounted : Prop :=
  ∀ (s : State) (p : Port), s.running p = true →
    exec (.framingError p) s = .next (s.modifyPort p fun ps =>
      { ps with frame := none, framingFlag := true, framingCount := min (ps.framingCount + 1) 255 }) ∧
    (∀ kind, exec (.badFrame p kind) s = .next (s.modifyPort p fun ps =>
      { ps with
        frame := some ⟨none, 1, [0x11], .none⟩
        framingFlag := true
        framingCount := min (ps.framingCount + 1) 255 })) ∧
    exec (.frameEndsEarly p) s = .next (s.noFrame p)

/-- The reply part of each frame kind has its fixed length, whatever its status (R167). -/
def Obligations.ReplyLengthsAreFixed : Prop :=
  ∀ (c : Instr) (k : FrameKind) (p : Port) (s : State) (bytes : List Byte),
    c.requestBytes = some bytes → bytes.head? = some k.code → c.port? = some p → s.running p = true →
      ∃ t, exec c s = .next t ∧ (t.reply p).map List.length = some k.replyLen

/-- HUB INFO reports part code, revision, own port, roles and the owner of semaphore 0, and changes no state (R165). -/
def Obligations.HubInfoReports : Prop :=
  ∀ (s : State) (p : Port), s.running p = true → exec (.hubInfo p) s = .next (s.answers p .hubInfo
    [0x00, 0x34, 0x04, 0x01, byte p.val, (s.port 0).role.code, (s.port 1).role.code, (s.port 2).role.code,
     ownerCode (s.sem 0).owner])

/-! ### Requests -/

/-- A SUBMIT is answered with the code of the first of the ten checks that fails, and leaves no other trace (R5). -/
def Obligations.SubmitIsRefusedByTheFirstFailingCheck : Prop :=
  ∀ (s : State) (p : Port) (f : SubmitFields) (code : ReplyStatus), s.running p = true →
    s.submitCode p f = some code → exec (.submit p f) s = .next (s.modifyPort p fun ps =>
      answered ps .submit (11 + f.data.length) [code.code, f.tag] .none)

/-- A SUBMIT that passes the ten checks becomes an open QUEUED request at the tail of the admission order, with the
fields of R15 and the effective hold limit of R16; the reply is OK and the tag. -/
def Obligations.SubmitAdmitsTheRequest : Prop :=
  ∀ (s : State) (p : Port) (f : SubmitFields), s.running p = true → s.submitCode p f = none →
    ∃ (kind : Kind) (key : Key) (route : Option RouteIdx), kind.code = f.kind ∧ s.resolved f = some (key, route) ∧
      exec (.submit p f) s = .next (s.modifyPort p fun ps =>
        { answered ps .submit (11 + f.data.length) [0x00, f.tag] .none with
          reqs := ps.reqs ++ [{
            tag := f.tag
            kind := kind
            posted := f.flags.getLsbD 0
            fence := f.flags.getLsbD 1
            underHold := f.flags.getLsbD 2
            route := route
            key := key
            writeData := f.data
            readLen := f.readLen.toNat
            holdLimit :=
              if kind = .hold then
                some (if f.holdLimit = 0 then (route.map fun i => (s.route i).holdLimit).getD 10
                  else f.holdLimit.toNat)
              else none
            reservation := !f.flags.getLsbD 0
            state := .queued }] })

/-- CANCEL completes the port's QUEUED or WAITING_HOLD request with the tag as CANCELLED, removing a waiting HOLD from
the waiters; an IN_FLIGHT one is left; a tag of no open request of the port is unknown (R45). -/
def Obligations.CancelByRequestState : Prop :=
  ∀ (s : State) (p : Port) (tag : Byte), s.running p = true →
    ((∀ r ∈ (s.port p).reqs, r.tag ≠ tag) → exec (.cancel p tag) s = .next (s.answers p .cancel [0x18, tag])) ∧
    ∀ r, (s.port p).reqs.find? (fun x => x.tag == tag) = some r →
      (r.state = .inFlight → exec (.cancel p tag) s = .next (s.answers p .cancel [0x17, tag])) ∧
      (r.state = .queued → exec (.cancel p tag) s = .next (s.modifyPort p fun ps =>
        { answered ps .cancel 2 [0x00, tag] .none with
          reqs := ps.reqs.eraseP fun x => x.tag == tag
          results := ps.results ++ if r.posted then [] else [⟨tag, r.kind, .cancelled, 0, [], none⟩] })) ∧
      (r.state = .waitingHold → exec (.cancel p tag) s =
        .next ((s.mapHolds fun h => h.map fun e =>
            { e with waiters := e.waiters.filter fun w => !(w.port == p && w.tag == tag) }).modifyPort p fun ps =>
          { answered ps .cancel 2 [0x00, tag] .none with
            reqs := ps.reqs.eraseP fun x => x.tag == tag
            results := ps.results ++ if r.posted then [] else [⟨tag, r.kind, .cancelled, 0, [], none⟩] }))

/-- LANE INSPECT lists the open requests in admission order, 16 places of four bytes, and changes no state (R48). -/
def Obligations.LaneInspectListsOpenRequests : Prop :=
  ∀ (s : State) (p : Port), s.running p = true → (s.port p).reqs.length ≤ 16 →
    exec (.laneInspect p) s = .next (s.answers p .laneInspect
      ([0x00, byte (s.port p).reqs.length] ++
        (s.port p).reqs.flatMap (fun r => [r.tag, byte r.key.seg.val, r.kind.code, r.state.code]) ++
        List.replicate (64 - 4 * (s.port p).reqs.length) 0x00))

/-- Where the outcome of a completing request goes (R17, R43, R135): it leaves the admission order; a non-posted one
becomes a result record at the tail; a posted one leaves nothing on DONE and CANCELLED, and on any other status fills
the posted-fault record or counts as a further failure. A port that is IN_RESET is given nothing. -/
def Obligations.CompletionGoesToTheResultStore : Prop :=
  (∀ (ps : PortState) (r : Request) (e : Ending), ps.inReset = true →
    ps.complete r e = { ps with reqs := ps.reqs.eraseP fun x => x.tag == r.tag }) ∧
  ∀ (ps : PortState) (r : Request) (e : Ending), ps.inReset = false →
    (r.posted = false → ps.complete r e =
      { ps with
        reqs := ps.reqs.eraseP fun x => x.tag == r.tag
        results := ps.results ++ [⟨r.tag, r.kind, e.status, e.ackCount, e.readData, e.holdRemaining⟩] }) ∧
    (r.posted = true → e.status = .done ∨ e.status = .cancelled → ps.complete r e =
      { ps with reqs := ps.reqs.eraseP fun x => x.tag == r.tag }) ∧
    (r.posted = true → e.status ≠ .done → e.status ≠ .cancelled →
      (ps.complete r e).reqs = ps.reqs.eraseP (fun x => x.tag == r.tag) ∧
      (ps.complete r e).results = ps.results ∧
      (ps.postedFault = none →
        (ps.complete r e).postedFault = some ⟨r.tag, r.route, r.key, e.status, e.ackCount, 0⟩) ∧
      ∀ f, ps.postedFault = some f →
        (ps.complete r e).postedFault = some { f with further := min (f.further + 1) 255 })

/-! ### Results, records and attention -/

/-- FETCH reports the head record and the number stored, or EMPTY; its normal end removes the record it returned if it
is still the head, and removes nothing otherwise; a FETCH that ends early removes nothing (R134). -/
def Obligations.FetchReportsThenRemoves : Prop :=
  (∀ (s : State) (p : Port), s.running p = true → (s.port p).results = [] →
    exec (.fetch p) s = .next (s.answers p .fetch (0x10 :: List.replicate 39 0x00))) ∧
  (∀ (s : State) (p : Port) (r : Result) (rest : List Result), s.running p = true → (s.port p).results = r :: rest →
    r.readData.length ≤ 32 → exec (.fetch p) s = .next (s.answers p .fetch
      ([0x00, byte (rest.length + 1), r.tag, r.kind.code, r.status.code, byte r.ackCount,
        byte (r.holdRemaining.getD 0), byte r.readData.length] ++ r.readData ++
        List.replicate (32 - r.readData.length) 0x00) (.fetch r))) ∧
  (∀ (s : State) (p : Port) (f : Frame) (r : Result), s.running p = true → (s.port p).frame = some f →
    f.kind = some .fetch → f.snapshot = .fetch r → exec (.fetchNormalEnd p) s = .next (s.modifyPort p fun ps =>
      { ps with
        frame := none
        results := if ps.results.head? = some r then ps.results.tail else ps.results })) ∧
  (∀ (s : State) (p : Port) (f : Frame), s.running p = true → (s.port p).frame = some f →
    f.kind = some .fetch → f.snapshot = .none → exec (.fetchNormalEnd p) s = .next (s.noFrame p)) ∧
  ∀ (s : State) (p : Port), s.running p = true → exec (.frameEndsEarly p) s = .next (s.noFrame p)

/-- POSTED FAULT reports the posted-fault record or EMPTY; its normal end empties the record unless a failure was
entered since the snapshot (R136). -/
def Obligations.PostedFaultReportsThenRemoves : Prop :=
  (∀ (s : State) (p : Port), s.running p = true → (s.port p).postedFault = none →
    exec (.postedFault p) s = .next (s.answers p .postedFault (0x10 :: List.replicate 7 0x00))) ∧
  (∀ (s : State) (p : Port) (f : PostedFault), s.running p = true → (s.port p).postedFault = some f →
    exec (.postedFault p) s = .next (s.answers p .postedFault
      [0x00, f.tag, routeCode f.route, byte f.key.seg.val, f.key.target.setWidth 8, f.status.code, byte f.ackCount,
       byte f.further] (.postedFault false))) ∧
  (∀ (s : State) (p : Port) (f : Frame), s.running p = true → (s.port p).frame = some f →
    f.kind = some .postedFault →
    (f.snapshot = .postedFault false → exec (.postedFaultNormalEnd p) s =
      .next (s.modifyPort p fun ps => { ps with frame := none, postedFault := none })) ∧
    (f.snapshot = .postedFault true ∨ f.snapshot = .none →
      exec (.postedFaultNormalEnd p) s = .next (s.noFrame p))) ∧
  ∀ (ps : PortState) (r : Request) (st : Status) (ack : Nat) (f : Frame) (b : Bool), ps.inReset = false →
    ps.frame = some f → f.snapshot = .postedFault b →
      (ps.enterFault r st ack).frame = some { f with snapshot := .postedFault true }

/-- HOLD ENDS reports the list and the lost count; its normal end removes the reported records and leaves as lost count
the ends lost since the snapshot (R138). A HOLD ENDS whose snapshot a HUB RESET has taken away removes nothing at its
normal end (R133, R138). A fifth record is not stored but counted (R137). -/
def Obligations.HoldEndsReportsThenRemoves : Prop :=
  (∀ (s : State) (p : Port), s.running p = true → (s.port p).holdEnds.length ≤ 4 →
    exec (.holdEnds p) s = .next (s.answers p .holdEnds
      ([0x00, byte (s.port p).holdEnds.length] ++
        (s.port p).holdEnds.flatMap (fun e => [byte e.key.seg.val, e.key.target.setWidth 8, e.reason.code]) ++
        List.replicate (12 - 3 * (s.port p).holdEnds.length) 0x00 ++ [byte (s.port p).lostEnds])
      (.holdEnds (s.port p).holdEnds.length 0))) ∧
  (∀ (s : State) (p : Port) (f : Frame) (count lost : Nat), s.running p = true → (s.port p).frame = some f →
    f.kind = some .holdEnds → f.snapshot = .holdEnds count lost →
      exec (.holdEndsNormalEnd p) s = .next (s.modifyPort p fun ps =>
        { ps with frame := none, holdEnds := ps.holdEnds.drop count, lostEnds := lost })) ∧
  (∀ (s : State) (p : Port) (f : Frame), s.running p = true → (s.port p).frame = some f →
    f.kind = some .holdEnds → f.snapshot = .none → exec (.holdEndsNormalEnd p) s = .next (s.noFrame p)) ∧
  ∀ (ps : PortState) (e : HoldEnd), ps.inReset = false →
    (ps.holdEnds.length < 4 → ps.addHoldEnd e = { ps with holdEnds := ps.holdEnds ++ [e] }) ∧
    (4 ≤ ps.holdEnds.length →
      (ps.addHoldEnd e).holdEnds = ps.holdEnds ∧ (ps.addHoldEnd e).lostEnds = min (ps.lostEnds + 1) 255 ∧
      ∀ f count lost, ps.frame = some f → f.snapshot = .holdEnds count lost →
        (ps.addHoldEnd e).frame = some { f with snapshot := .holdEnds count (min (lost + 1) 255) })

/-- NOTICES reports the four sets; its normal end removes each reported member that was not added again since the
snapshot (R140). An addition joins the set, is remembered by a NOTICES frame in progress, and is not made on a port
that is IN_RESET (R139). A NOTICES that ends early, or whose snapshot a HUB RESET has taken away, removes nothing
(R133). -/
def Obligations.NoticesReportThenRemove : Prop :=
  (∀ (s : State) (p : Port), s.running p = true →
    exec (.notices p) s = .next (s.answers p .notices
      [0x00, (s.port p).notices.poll.extractLsb' 8 8, (s.port p).notices.poll.extractLsb' 0 8,
       (s.port p).notices.seg.setWidth 8, (s.port p).notices.freed, (s.port p).notices.lost]
      (.notices (s.port p).notices ⟨0, 0, 0, 0⟩))) ∧
  (∀ (s : State) (p : Port) (f : Frame) (a b : NoticeSets), s.running p = true → (s.port p).frame = some f →
    f.kind = some .notices → f.snapshot = .notices a b →
      exec (.noticesNormalEnd p) s = .next (s.modifyPort p fun ps =>
        { ps with
          frame := none
          notices := ⟨ps.notices.poll &&& ~~~(a.poll &&& ~~~b.poll), ps.notices.seg &&& ~~~(a.seg &&& ~~~b.seg),
            ps.notices.freed &&& ~~~(a.freed &&& ~~~b.freed), ps.notices.lost &&& ~~~(a.lost &&& ~~~b.lost)⟩ })) ∧
  (∀ (s : State) (p : Port) (f : Frame), s.running p = true → (s.port p).frame = some f →
    f.kind = some .notices → f.snapshot = .none → exec (.noticesNormalEnd p) s = .next (s.noFrame p)) ∧
  (∀ (ps : PortState) (g : NoticeSets), ps.inReset = false →
    (ps.addNotices g).notices =
      ⟨ps.notices.poll ||| g.poll, ps.notices.seg ||| g.seg, ps.notices.freed ||| g.freed, ps.notices.lost ||| g.lost⟩ ∧
    ∀ f a b, ps.frame = some f → f.snapshot = .notices a b →
      (ps.addNotices g).frame = some { f with snapshot := (.notices a
        ⟨b.poll ||| g.poll, b.seg ||| g.seg, b.freed ||| g.freed, b.lost ||| g.lost⟩) }) ∧
  (∀ (ps : PortState) (g : NoticeSets), ps.inReset = true → ps.addNotices g = ps) ∧
  ∀ (s : State) (p : Port), s.running p = true → exec (.frameEndsEarly p) s = .next (s.noFrame p)

/-- CAUSES reports the causes, the mask and the framing count as they stood, and clears FRAMING when asked (R143);
CAUSE MASK replaces the mask and answers it (R142). -/
def Obligations.CausesAndMaskFrames : Prop :=
  ∀ (s : State) (p : Port) (b : Byte), s.running p = true →
    (b.getLsbD 0 = false → exec (.causes p b) s = .next (s.answers p .causes
      [0x00, (s.port p).pendingCauses.setWidth 8, (s.port p).mask.setWidth 8, byte (s.port p).framingCount])) ∧
    (b.getLsbD 0 = true → exec (.causes p b) s =
      .next ((s.modifyPort p fun ps => { ps with framingFlag := false, framingCount := 0 }).answers p .causes
        [0x00, (s.port p).pendingCauses.setWidth 8, (s.port p).mask.setWidth 8, byte (s.port p).framingCount])) ∧
    exec (.causeMask p b) s =
      .next ((s.modifyPort p fun ps => { ps with mask := b.setWidth 7 }).answers p .causeMask [0x00, b &&& 0x7F])

/-- When each of the seven causes is pending (R141), and when ATTNxN is low (R144). -/
def Obligations.AttentionFollowsTheCauses : Prop :=
  (∀ ps : PortState,
    (ps.pendingCauses.getLsbD 0 = true ↔ ps.results ≠ []) ∧
    (ps.pendingCauses.getLsbD 1 = true ↔ ps.postedFault ≠ none) ∧
    (ps.pendingCauses.getLsbD 2 = true ↔ ps.holdEnds ≠ [] ∨ ps.lostEnds ≠ 0) ∧
    (ps.pendingCauses.getLsbD 3 = true ↔ ps.notices.poll ≠ 0) ∧
    (ps.pendingCauses.getLsbD 4 = true ↔ ps.notices.seg ≠ 0) ∧
    (ps.pendingCauses.getLsbD 5 = true ↔ ps.notices.freed ≠ 0 ∨ ps.notices.lost ≠ 0) ∧
    (ps.pendingCauses.getLsbD 6 = true ↔ ps.framingFlag = true)) ∧
  ∀ (s : State) (p : Port), s.attnLow p = true ↔
    s.held = false ∧ (s.port p).inReset = false ∧
      ∃ n, n < 7 ∧ (s.port p).pendingCauses.getLsbD n = true ∧ (s.port p).mask.getLsbD n = true

/-! ### Semaphores -/

/-- SEM TAKE: the number, the role and the ownership decide effect and reply (R147). -/
def Obligations.SemTakeByOwnership : Prop :=
  ∀ (s : State) (p : Port) (b : Byte), s.running p = true →
    (8 ≤ b.toNat → exec (.semTake p b) s = .next (s.answers p .semTake [0x14, b, 0xFF])) ∧
    ∀ i : SemIdx, b.toNat = i.val →
      (i = 0 → (s.port p).role = .member →
        exec (.semTake p b) s = .next (s.answers p .semTake [0x12, b, ownerCode (s.sem i).owner])) ∧
      (i ≠ 0 ∨ (s.port p).role = .supervisor →
        ((s.sem i).owner = none → exec (.semTake p b) s =
          .next ((s.setSem i { s.sem i with owner := some p }).answers p .semTake [0x1B, b, byte p.val])) ∧
        ((s.sem i).owner = some p →
          exec (.semTake p b) s = .next (s.answers p .semTake [0x1C, b, byte p.val])) ∧
        ∀ q, (s.sem i).owner = some q → q ≠ p → exec (.semTake p b) s =
          .next ((s.setSem i { s.sem i with interest := (s.sem i).interest ||| BitVec.twoPow 3 p.val }).answers p
            .semTake [0x1D, b, byte q.val]))

/-- SEM GIVE: the owner frees the semaphore, which tells its interest set and empties it; any other port is NOT_OWNER
(R148). SEM BREAK: refused to a MEMBER for every number; by a SUPERVISOR it frees an owned semaphore as SEM GIVE does and
adds it to its former owner's semaphore-lost set (R149). -/
def Obligations.SemGiveAndBreakFree : Prop :=
  (∀ (s : State) (p : Port) (b : Byte), s.running p = true →
     (8 ≤ b.toNat → exec (.semGive p b) s = .next (s.answers p .semGive [0x14, b, 0xFF])) ∧
     ∀ i : SemIdx, b.toNat = i.val →
       ((s.sem i).owner ≠ some p →
         exec (.semGive p b) s = .next (s.answers p .semGive [0x1F, b, ownerCode (s.sem i).owner])) ∧
       ((s.sem i).owner = some p → exec (.semGive p b) s =
         .next ((((s.noFrame p).setSem i ⟨none, 0⟩).mapPorts fun q ps =>
           if (s.sem i).interest.getLsbD q.val then ps.addNotices (.ofFreed i) else ps).answers p .semGive
             [0x1E, b, 0xFF]))) ∧
  (∀ (s : State) (p : Port) (b : Byte), s.running p = true →
     ((s.port p).role = .member →
       (8 ≤ b.toNat → exec (.semBreak p b) s = .next (s.answers p .semBreak [0x12, b, 0xFF])) ∧
       ∀ i : SemIdx, b.toNat = i.val →
         exec (.semBreak p b) s = .next (s.answers p .semBreak [0x12, b, ownerCode (s.sem i).owner])) ∧
     ((s.port p).role = .supervisor →
       (8 ≤ b.toNat → exec (.semBreak p b) s = .next (s.answers p .semBreak [0x14, b, 0xFF])) ∧
       ∀ i : SemIdx, b.toNat = i.val →
         ((s.sem i).owner = none → exec (.semBreak p b) s = .next (s.answers p .semBreak [0x00, b, 0xFF])) ∧
         ∀ q, (s.sem i).owner = some q → exec (.semBreak p b) s =
           .next (((((s.noFrame p).setSem i ⟨none, 0⟩).mapPorts fun x ps =>
             if (s.sem i).interest.getLsbD x.val then ps.addNotices (.ofFreed i) else ps).modifyPort q fun ps =>
               ps.addNotices (.ofLost i)).answers p .semBreak [0x1E, b, 0xFF])))

/-! ### Routes -/

/-- ROUTE GET, POLL GET and POLL READ report one entry as it stands and change no state; an index above the range is
BAD_INDEX (R26, R126, R127). -/
def Obligations.TableReadsReportTheEntry : Prop :=
  ∀ (s : State) (p : Port) (b : Byte), s.running p = true →
    (32 ≤ b.toNat → exec (.routeGet p b) s = .next (s.answers p .routeGet (0x14 :: List.replicate 9 0x00))) ∧
    (16 ≤ b.toNat → exec (.pollGet p b) s = .next (s.answers p .pollGet (0x14 :: List.replicate 14 0x00))) ∧
    (16 ≤ b.toNat → exec (.pollRead p b) s = .next (s.answers p .pollRead (0x14 :: List.replicate 14 0x00))) ∧
    (∀ i : RouteIdx, b.toNat = i.val → exec (.routeGet p b) s = .next (s.answers p .routeGet
      [0x00, boolByte (s.route i).valid, (s.route i).aliasAddr.setWidth 8, byte (s.route i).key.seg.val,
       (s.route i).key.target.setWidth 8, (s.route i).rights[0].code, (s.route i).rights[1].code,
       (s.route i).rights[2].code, boolByte (s.route i).posted, byte (s.route i).holdLimit])) ∧
    ∀ n : PollIdx, b.toNat = n.val →
      exec (.pollGet p b) s = .next (s.answers p .pollGet
        [0x00, byte (s.poll n).config.route.val, byte (s.poll n).config.pointerCount.val, (s.poll n).config.pointer0,
         (s.poll n).config.pointer1, byte (s.poll n).config.readLen, byte ((s.poll n).config.period / 256),
         byte ((s.poll n).config.period % 256), (s.poll n).config.notify.setWidth 8, (s.poll n).state.code,
         byte ((s.poll n).countdown / 256), byte ((s.poll n).countdown % 256), (s.poll n).mark.code,
         boolByte (s.poll n).discard, byte (s.poll n).overrun]) ∧
      ((s.poll n).result.data.length ≤ 8 → exec (.pollRead p b) s = .next (s.answers p .pollRead
        ([0x00, pollStatusCode (s.poll n).result.status, (s.poll n).result.sequence,
          boolByte (s.poll n).result.valid, byte ((s.poll n).result.age / 256), byte ((s.poll n).result.age % 256),
          byte (s.poll n).config.readLen] ++ (s.poll n).result.data ++
          List.replicate (8 - (s.poll n).result.data.length) 0x00)))

/-- ROUTE SET: the four checks in order, then the entry is written whole, and a sweep of its index follows when it was
valid (R23, R24). ROUTE CLEAR: claim and index are checked; a valid entry becomes invalid, keeps its other fields and is
swept; an invalid one is left (R25). -/
def Obligations.RouteSetAndClear : Prop :=
  (∀ (s : State) (p : Port) (f : RouteFields), s.running p = true →
     let fits : Prop :=
       0x08 ≤ f.aliasByte.toNat % 128 ∧ f.aliasByte.toNat % 128 ≤ 0x77 ∧ f.segment.toNat ≤ 3 ∧
       0x08 ≤ f.target.toNat % 128 ∧ f.target.toNat % 128 ≤ 0x77 ∧ f.right0.toNat ≤ 2 ∧ f.right1.toNat ≤ 2 ∧
       f.right2.toNat ≤ 2 ∧ f.posted.toNat ≤ 1 ∧ f.holdLimit ≠ 0
     let taken (i : RouteIdx) : Prop :=
       ∃ j, j ≠ i ∧ (s.route j).valid = true ∧ (s.route j).aliasAddr = f.aliasByte.setWidth 7
     ((s.sem 0).owner ≠ some p → exec (.routeSet p f) s = .next (s.answers p .routeSet [0x13, 0x00, 0x00])) ∧
     ((s.sem 0).owner = some p →
       (32 ≤ f.index.toNat → exec (.routeSet p f) s = .next (s.answers p .routeSet [0x14, 0x00, 0x00])) ∧
       ∀ i : RouteIdx, f.index.toNat = i.val →
         (¬fits → exec (.routeSet p f) s = .next (s.answers p .routeSet [0x15, 0x00, 0x00])) ∧
         (fits → taken i → exec (.routeSet p f) s = .next (s.answers p .routeSet [0x16, 0x00, 0x00])) ∧
         (fits → ¬taken i →
           ∃ e : RouteEntry, e.valid = true ∧ e.aliasAddr = f.aliasByte.setWidth 7 ∧
             e.key.seg.val = f.segment.toNat ∧ e.key.target = f.target.setWidth 7 ∧ e.rights[0].code = f.right0 ∧
             e.rights[1].code = f.right1 ∧ e.rights[2].code = f.right2 ∧ boolByte e.posted = f.posted ∧
             e.holdLimit = f.holdLimit.toNat ∧
             ((s.route i).valid = false → exec (.routeSet p f) s =
               .next ((s.setRoute i e).answers p .routeSet [0x00, 0x00, 0x00])) ∧
             ((s.route i).valid = true → exec (.routeSet p f) s =
               .next ((((s.noFrame p).setRoute i e).sweep i).answers p .routeSet
                 [0x00, byte (s.sweptCount i 0 + s.sweptCount i 1 + s.sweptCount i 2), byte (s.suspendCount i)]))))) ∧
  (∀ (s : State) (p : Port) (b : Byte), s.running p = true →
     ((s.sem 0).owner ≠ some p → exec (.routeClear p b) s = .next (s.answers p .routeClear [0x13, 0x00, 0x00])) ∧
     ((s.sem 0).owner = some p →
       (32 ≤ b.toNat → exec (.routeClear p b) s = .next (s.answers p .routeClear [0x14, 0x00, 0x00])) ∧
       ∀ i : RouteIdx, b.toNat = i.val →
         ((s.route i).valid = false →
           exec (.routeClear p b) s = .next (s.answers p .routeClear [0x00, 0x00, 0x00])) ∧
         ((s.route i).valid = true → exec (.routeClear p b) s =
           .next ((((s.noFrame p).setRoute i { s.route i with valid := false }).sweep i).answers p .routeClear
             [0x00, byte (s.sweptCount i 0 + s.sweptCount i 1 + s.sweptCount i 2), byte (s.suspendCount i)]))))

/-- The effects of a route change sweep on requests, waiters, due lists and poll entries (R27 to R31), and what its two
numbers count (R24). -/
def Obligations.SweepEffectsOfARouteChange : Prop :=
  ∀ (s : State) (i : RouteIdx), SweepEffects s (s.sweep i) i ∧
    (∀ p, s.sweptCount i p =
      ((s.port p).reqs.filter fun r => r.route == some i && r.state != .inFlight).length) ∧
    s.suspendCount i =
      (allPolls.filter fun n => (s.poll n).config.route == i && (s.poll n).state == .active).length

/-! ### Polls -/

/-- POLL SET: the four checks in order, then configuration, state, countdown, overrun count and result are set; a queued
instance leaves its due list and one in flight is discarded (R123). -/
def Obligations.PollSetChecksThenConfigures : Prop :=
  ∀ (s : State) (p : Port) (f : PollFields), s.running p = true →
    let fits : Prop :=
      f.route.toNat ≤ 31 ∧ f.pointerCount.toNat ≤ 2 ∧ 1 ≤ f.readLen.toNat ∧ f.readLen.toNat ≤ 8 ∧
      1 ≤ f.period.toNat ∧ f.period.toNat ≤ 60000 ∧ f.notify.toNat ≤ 7
    ((s.sem 0).owner ≠ some p → exec (.pollSet p f) s = .next (s.answers p .pollSet [0x13])) ∧
    ((s.sem 0).owner = some p →
      (16 ≤ f.index.toNat → exec (.pollSet p f) s = .next (s.answers p .pollSet [0x14])) ∧
      ∀ n : PollIdx, f.index.toNat = n.val →
        (¬fits → exec (.pollSet p f) s = .next (s.answers p .pollSet [0x15])) ∧
        ∀ i : RouteIdx, f.route.toNat = i.val → fits →
          ((s.route i).valid = false → exec (.pollSet p f) s = .next (s.answers p .pollSet [0x05])) ∧
          ((s.route i).valid = true →
            ∃ c : PollConfig, c.route = i ∧ c.pointerCount.val = f.pointerCount.toNat ∧
              c.pointer0 = (if 1 ≤ f.pointerCount.toNat then f.pointer0 else 0x00) ∧
              c.pointer1 = (if 2 ≤ f.pointerCount.toNat then f.pointer1 else 0x00) ∧
              c.readLen = f.readLen.toNat ∧ c.period = f.period.toNat ∧ c.notify = f.notify.setWidth 3 ∧
              exec (.pollSet p f) s = .next (((s.mapDue fun l => l.filter fun m => decide (m ≠ n)).setPoll n
                ⟨c, .off, c.period, if (s.poll n).mark = .inFlight then .inFlight else .none,
                  (s.poll n).mark == .inFlight, 0,
                  ⟨none, 0, false, List.replicate c.readLen 0x00, 65535⟩⟩).answers p .pollSet [0x00])))

/-- POLL START makes an OFF or SUSPENDED entry ACTIVE with its full period when its route is valid (R124); POLL STOP
makes an entry OFF and takes its queued instance out of its due list (R125). -/
def Obligations.PollStartAndStop : Prop :=
  ∀ (s : State) (p : Port) (b : Byte), s.running p = true →
    ((s.sem 0).owner ≠ some p →
      exec (.pollStart p b) s = .next (s.answers p .pollStart [0x13]) ∧
      exec (.pollStop p b) s = .next (s.answers p .pollStop [0x13])) ∧
    ((s.sem 0).owner = some p →
      (16 ≤ b.toNat →
        exec (.pollStart p b) s = .next (s.answers p .pollStart [0x14]) ∧
        exec (.pollStop p b) s = .next (s.answers p .pollStop [0x14])) ∧
      ∀ n : PollIdx, b.toNat = n.val →
        ((s.route (s.poll n).config.route).valid = false →
          exec (.pollStart p b) s = .next (s.answers p .pollStart [0x05])) ∧
        ((s.route (s.poll n).config.route).valid = true → (s.poll n).state = .active →
          exec (.pollStart p b) s = .next (s.answers p .pollStart [0x00])) ∧
        ((s.route (s.poll n).config.route).valid = true → (s.poll n).state ≠ .active →
          exec (.pollStart p b) s = .next ((s.setPoll n
            { s.poll n with state := .active, countdown := (s.poll n).config.period }).answers p .pollStart [0x00])) ∧
        exec (.pollStop p b) s = .next (((s.mapDue fun l => l.filter fun m => decide (m ≠ n)).setPoll n
          { s.poll n with
            state := .off
            mark := if (s.poll n).mark = .queued then .none else (s.poll n).mark }).answers p .pollStop [0x00]))

/-- One decrease of the countdown of an ACTIVE entry, and what its becoming due does by the instance mark and the
segment's state (R116); POLL_DUE is the decrease that brings the countdown to 0 (log 12). At a mark the age of every
result increases, in every state, and stops at 65535 (R122); taking all entries in one event is the table's own row
(log 13). -/
def Obligations.MarksCountDownAndAgePolls : Prop :=
  (∀ (s : State) (n : PollIdx), s.held = false →
     let e := s.poll n
     let g := (s.route e.config.route).key.seg
     (e.state ≠ .active → exec (.pollCountdown n) s = .next s) ∧
     (e.state = .active → 1 < e.countdown →
       exec (.pollCountdown n) s = .next (s.setPoll n { e with countdown := e.countdown - 1 })) ∧
     (e.state = .active → e.countdown ≤ 1 →
       exec (.pollDue n) s = exec (.pollCountdown n) s ∧
       (e.mark ≠ .none → exec (.pollCountdown n) s = .next (s.setPoll n
         { e with countdown := e.config.period, overrun := min (e.overrun + 1) 255 })) ∧
       (e.mark = .none → e.discard = false → (s.engine g).state = .faulted ∨ (s.engine g).state = .disabled →
         exec (.pollCountdown n) s = .next (s.setPoll n
           { e with
             countdown := e.config.period
             result := { e.result with status := some .segmentOffline, sequence := e.result.sequence + 1 } })) ∧
       (e.mark = .none → (s.engine g).state ≠ .faulted → (s.engine g).state ≠ .disabled →
         exec (.pollCountdown n) s = .next ((s.setPoll n
           { e with countdown := e.config.period, mark := .queued }).setDue g (s.dueOf g ++ [n])))) ∧
     (e.state ≠ .active ∨ 1 < e.countdown → exec (.pollDue n) s = .next s)) ∧
  (∀ s : State, s.held = false → exec .ageIncrease s = .next (s.mapPolls fun e =>
     { e with result := { e.result with age := min (e.result.age + 1) 65535 } }))

/-! ### Segment frames -/

/-- SEGMENT SET: the checks in order, then speed, limit and the arbiter's fields are replaced; a change of mode zeroes
the deficits and makes port 0 current, a DEFICIT arbiter that stays so lowers its deficits to their new bounds
(R84, R106). -/
def Obligations.SegmentSetChecksThenConfigures : Prop :=
  ∀ (s : State) (p : Port) (f : SegmentFields), s.running p = true →
    let fits : Prop :=
      f.speed.toNat ≤ 2 ∧ f.limit ≠ 0 ∧ f.mode.toNat ≤ 1 ∧
      f.rank1.toNat ≤ 3 ∧ f.rank2.toNat ≤ 3 ∧ f.rank3.toNat ≤ 3 ∧ f.rank4.toNat ≤ 3 ∧
      [f.rank1, f.rank2, f.rank3, f.rank4].Nodup ∧
      8 ≤ f.quantum0.toNat ∧ 8 ≤ f.quantum1.toNat ∧ 8 ≤ f.quantum2.toNat ∧ 8 ≤ f.quantum3.toNat
    ((s.sem 0).owner ≠ some p → exec (.segmentSet p f) s = .next (s.answers p .segmentSet [0x13])) ∧
    ((s.sem 0).owner = some p →
      (4 ≤ f.segment.toNat → exec (.segmentSet p f) s = .next (s.answers p .segmentSet [0x14])) ∧
      ∀ g : Seg, f.segment.toNat = g.val →
        (¬fits → exec (.segmentSet p f) s = .next (s.answers p .segmentSet [0x15])) ∧
        (fits → ∃ (speed : Speed) (a : Arbiter), speed.code = f.speed ∧ a.mode.code = f.mode ∧
          a.ranking.toList.map (·.val) = [f.rank1.toNat, f.rank2.toNat, f.rank3.toNat, f.rank4.toNat] ∧
          a.quanta = #v[f.quantum0.toNat, f.quantum1.toNat, f.quantum2.toNat, f.quantum3.toNat] ∧
          (a.mode ≠ (s.arbiter g).mode → a.deficits = #v[0, 0, 0, 0] ∧ a.current = 0) ∧
          (a.mode = (s.arbiter g).mode → a.mode = .deficit → a.current = (s.arbiter g).current ∧
            ∀ c : Contender, a.deficits[c] = min (s.arbiter g).deficits[c] (a.quanta[c] + 64)) ∧
          (a.mode = (s.arbiter g).mode → a.mode = .priority →
            a.current = (s.arbiter g).current ∧ a.deficits = (s.arbiter g).deficits) ∧
          exec (.segmentSet p f) s =
            .next (((s.setEngine g { s.engine g with speed := speed, limit := f.limit.toNat }).setArbiter g a).answers
              p .segmentSet [0x00])))

/-- SEGMENT GET reports configuration, engine status, statistics and arbiter status and changes no state of the hub
(R72, R107). On an ACTIVE engine the phase is that of one of the elements the transaction has before it; which one is a
free value that never goes back as the model's own counter grows (log 7). -/
def Obligations.SegmentGetReports : Prop :=
  ∃ moves : Seg → Nat → Nat → Nat, (∀ g since m n, m ≤ n → moves g since m ≤ moves g since n) ∧
  ∀ (s : State) (p : Port) (b : Byte), s.running p = true →
    (4 ≤ b.toNat → exec (.segmentGet p b) s = .next (s.answers p .segmentGet (0x14 :: List.replicate 41 0x00))) ∧
    ∀ g : Seg, b.toNat = g.val →
      let e := s.engine g
      let a := s.arbiter g
      let reply (phase occupant : Byte) : List Byte :=
        [0x00, e.speed.code, byte e.limit, a.mode.code, byte a.ranking[0].val, byte a.ranking[1].val,
          byte a.ranking[2].val, byte a.ranking[3].val, byte a.quanta[0], byte a.quanta[1], byte a.quanta[2],
          byte a.quanta[3], e.state.code, phase, occupant, boolByte e.disablePending, byte e.tries,
          e.faultReason.code, byte e.faultCount] ++
        [e.stats.started, e.stats.addrNacks, e.stats.dataNacks, e.stats.timeouts, e.stats.lineConflicts,
          e.stats.recoveries, e.stats.faults, a.deficits[0], a.deficits[1], a.deficits[2], a.deficits[3]].flatMap
            (fun n => [byte (n / 256), byte (n % 256)]) ++ [byte a.current.val]
      ((∀ x, e.state ≠ .active x) →
        exec (.segmentGet p b) s = .next (s.answers p .segmentGet (reply 0x00 0xFF))) ∧
      ∀ x, e.state = .active x → x.ahead ≠ [] →
        ∃ now, x.ahead[min (moves g x.since s.freeCount) (x.ahead.length - 1)]? = some now ∧
          exec (.segmentGet p b) s = .next (State.answers { s with freeCount := s.freeCount + 1 } p .segmentGet
            (reply now.phase.code x.carrier.code))

/-- SEGMENT DISABLE acts by the engine's state: DISABLED at once, a pending disable, or ALREADY_OFFLINE (R103). SEGMENT
RESTORE sends an offline segment to CHECKING with tries 0 and tells every port, and is NOT_OFFLINE otherwise (R105).
STATS CLEAR sets the seven statistics to 0 and keeps the fault record (R108). -/
def Obligations.SegmentDisableRestoreAndStatsClear : Prop :=
  (∀ (s : State) (p : Port) (b : Byte), s.running p = true →
     ((s.sem 0).owner ≠ some p → exec (.segmentDisable p b) s = .next (s.answers p .segmentDisable [0x13])) ∧
     ((s.sem 0).owner = some p →
       (4 ≤ b.toNat → exec (.segmentDisable p b) s = .next (s.answers p .segmentDisable [0x14])) ∧
       ∀ g : Seg, b.toNat = g.val →
         let now := .next (((s.noFrame p).enterDisabled g).answers p .segmentDisable [0x00])
         let later :=
           .next ((s.setEngine g { s.engine g with disablePending := true }).answers p .segmentDisable [0x00])
         ((s.engine g).state = .disabled →
           exec (.segmentDisable p b) s = .next (s.answers p .segmentDisable [0x1A])) ∧
         ((s.engine g).state = .idle → exec (.segmentDisable p b) s = now) ∧
         (∀ free limit, (s.engine g).state = .checking free limit → exec (.segmentDisable p b) s = now) ∧
         ((s.engine g).state = .faulted → exec (.segmentDisable p b) s = now) ∧
         (∀ marks h, (s.engine g).state = .recovering .waitScl marks h → exec (.segmentDisable p b) s = now) ∧
         (∀ x, (s.engine g).state = .active x → exec (.segmentDisable p b) s = later) ∧
         (∀ k marks h, (s.engine g).state = .recovering (.pulse k) marks h → exec (.segmentDisable p b) s = later) ∧
         ∀ marks h, (s.engine g).state = .recovering .stop marks h → exec (.segmentDisable p b) s = later)) ∧
  (∀ (s : State) (p : Port) (b : Byte), s.running p = true →
     ((s.sem 0).owner ≠ some p →
       exec (.segmentRestore p b) s = .next (s.answers p .segmentRestore [0x13]) ∧
       exec (.statsClear p b) s = .next (s.answers p .statsClear [0x13])) ∧
     ((s.sem 0).owner = some p →
       (4 ≤ b.toNat →
         exec (.segmentRestore p b) s = .next (s.answers p .segmentRestore [0x14]) ∧
         exec (.statsClear p b) s = .next (s.answers p .statsClear [0x14])) ∧
       ∀ g : Seg, b.toNat = g.val →
         ((s.engine g).state = .faulted ∨ (s.engine g).state = .disabled → exec (.segmentRestore p b) s =
           .next ((((s.noFrame p).setEngine g { s.engine g with state := .checking 0 0, tries := 0 }).mapPorts
             fun _ ps => ps.addNotices (.ofSeg g)).answers p .segmentRestore [0x00])) ∧
         ((s.engine g).state ≠ .faulted → (s.engine g).state ≠ .disabled →
           exec (.segmentRestore p b) s = .next (s.answers p .segmentRestore [0x19])) ∧
         exec (.statsClear p b) s =
           .next ((s.setEngine g { s.engine g with stats := ⟨0, 0, 0, 0, 0, 0, 0⟩ }).answers p .statsClear [0x00])))

/-- Entry into DISABLED clears a pending disable, entry into FAULTED sets the fault record and counts, and each takes
the segment offline with the effects of R102 on every other block (R101, R102, R103). -/
def Obligations.GoingOfflineDrainsTheSegment : Prop :=
  ∀ (s : State) (g : Seg),
    OfflineEffects s (s.enterDisabled g) g ∧
    (s.enterDisabled g).engine g = { s.engine g with state := .disabled, disablePending := false } ∧
    ∀ reason, OfflineEffects s (s.enterFaulted g reason) g ∧
      (s.enterFaulted g reason).engine g =
        { s.engine g with
          state := .faulted
          faultReason := reason
          faultCount := min ((s.engine g).faultCount + 1) 255
          stats := { (s.engine g).stats with faults := min ((s.engine g).stats.faults + 1) 65535 } }

/-! ### Arbitration -/

/-- A port's candidate on a segment is the head of its lane, when it is QUEUED, a bus request, not fence-blocked, and
its key is free or held by the port (R39, R41, R73); the poll contender's is the oldest due entry whose key is free
(R74). -/
def Obligations.CandidatesAreEligibleHeads : Prop :=
  ∀ (s : State) (g : Seg), HoldKeysUnique s →
    (∀ p r, s.portCandidate g p = some r ↔
      ∃ before after, (s.port p).reqs = before ++ r :: after ∧ (∀ x ∈ before, x.key.seg ≠ g) ∧ r.key.seg = g ∧
        r.state = .queued ∧ r.kind.usesBus = true ∧ (r.fence = true → before = []) ∧
        (∀ x ∈ before, x.fence = false) ∧ ∀ i e, s.hold i = some e → e.key = r.key → e.holder = p) ∧
    ∀ n, s.pollCandidate g = some n ↔
      ∃ before after, s.dueOf g = before ++ n :: after ∧ (∀ i e, s.hold i = some e → e.key ≠ s.pollKey n) ∧
        ∀ m ∈ before, ∃ i e, s.hold i = some e ∧ e.key = s.pollKey m

/-- In PRIORITY mode the winner is the highest-ranked contender that has a candidate, and the arbiter's state is not
changed; without a candidate there is no winner (R76, R79). -/
def Obligations.PriorityServesTheHighestRanked : Prop :=
  ∀ (s : State) (g : Seg), (s.arbiter g).mode = .priority →
    (∀ c before after, (s.arbiter g).ranking.toList = before ++ c :: after → s.candidate g c ≠ none →
      (∀ x ∈ before, s.candidate g x = none) → s.winner g = some (c, s.arbiter g)) ∧
    ((∀ c, s.candidate g c = none) → s.winner g = none)

/-- In DEFICIT mode the costs are those of R81, and a decision with a candidate ends with the winner that the procedure
of R82 leads to (R81, R82, R83). -/
def Obligations.DeficitRotationEndsWithTheWinner : Prop :=
  (∀ (s : State) (p : Port) (r : Request), s.cost (.request p r) = 1 + r.writeData.length + r.readLen) ∧
  (∀ (s : State) (n : PollIdx),
    s.cost (.poll n) = 1 + (s.poll n).config.pointerCount.val + (s.poll n).config.readLen) ∧
  ∀ (s : State) (g : Seg), DeficitBounds s → (s.arbiter g).mode = .deficit → (∃ c, s.candidate g c ≠ none) →
    ∃ d c, s.winner g = some (c, { s.arbiter g with deficits := d, current := c }) ∧
      Rotation (Vector.ofFn fun x => (s.candidate g x).map s.cost) (s.arbiter g).quanta (s.arbiter g).deficits
        (s.arbiter g).current d c

/-- A decision hands the winner's candidate to the engine in the same event: the request becomes IN_FLIGHT, or the poll
leaves its due list; the engine becomes ACTIVE with it, takes speed and limit as they stand, counts one transaction
started, and in DEFICIT mode the win is charged its cost (R78, R82, R92). -/
def Obligations.GrantStartsTheTransaction : Prop :=
  ∀ (s : State) (g : Seg) (c : Contender) (a : Arbiter), s.held = false → (s.engine g).state = .idle →
    (s.engine g).disablePending = false → s.winner g = some (c, a) →
    let charged (k : Nat) : Arbiter :=
      if a.mode = .deficit then { a with deficits := a.deficits.set c (a.deficits[c] - k) } else a
    let started (carrier : Carrier) (w : Work) : Engine :=
      { s.engine g with
        state := .active ⟨carrier, w, w.elements, (s.engine g).speed, (s.engine g).limit, 0, s.freeCount⟩
        stats := { (s.engine g).stats with started := min ((s.engine g).stats.started + 1) 65535 } }
    (∀ p r, s.candidate g c = some (.request p r) → (r.underHold = true → s.holderOf r.key = some p) →
      exec (.arbiterDecision g) s =
        .next (((s.setArbiter g (charged (s.cost (.request p r)))).modifyPort p fun ps =>
          { ps with reqs := ps.reqs.map fun x => if x.tag == r.tag then { x with state := .inFlight } else x }).setEngine
            g (started (.port p) ⟨r.key.target, r.writeData, r.readLen⟩))) ∧
    ∀ n, s.candidate g c = some (.poll n) → exec (.arbiterDecision g) s =
      .next ((((s.setArbiter g (charged (s.cost (.poll n)))).setDue g ((s.dueOf g).erase n)).setPoll n
        { s.poll n with mark := .inFlight }).setEngine g (started (.poll n)
          ⟨(s.pollKey n).target,
            [(s.poll n).config.pointer0, (s.poll n).config.pointer1].take (s.poll n).config.pointerCount.val,
            (s.poll n).config.readLen⟩))

/-- A winning UNDER_HOLD request whose port is not the holder completes HOLD_LOST, uncharged, and the arbiter decides
again at once; an arbiter that may not decide, or has no candidate, does nothing (R62, R76, R78). -/
def Obligations.HoldLostDecidesAgain : Prop :=
  (∀ (s : State) (g : Seg) (c : Contender) (a : Arbiter) (p : Port) (r : Request), s.held = false →
    (s.engine g).state = .idle → (s.engine g).disablePending = false → s.winner g = some (c, a) →
    s.candidate g c = some (.request p r) → r.underHold = true → s.holderOf r.key ≠ some p →
    exec (.arbiterDecision g) s =
      exec (.arbiterDecision g) ((s.setArbiter g a).completeReq p r { status := .holdLost })) ∧
  ∀ (s : State) (g : Seg), (s.engine g).state ≠ .idle ∨ (s.engine g).disablePending = true ∨ s.winner g = none →
    exec (.arbiterDecision g) s = .next s

/-! ### Holds -/

/-- A settleable HOLD is granted the lowest-numbered free entry when its key is free, completes HOLD_TABLE_FULL when
none is free, ALREADY_HOLDING when its port holds the key, and joins the end of the waiters when another port does
(R55). A settleable RELEASE of the holder hands the hold over and completes RELEASED; any other completes NOT_HOLDER
(R56). With nothing settleable a settlement does nothing (log 2). -/
def Obligations.SettlementsAgainstTheHoldTable : Prop :=
  (∀ (s : State) (p : Port) (g : Seg) (r : Request), s.held = false → HoldKeysUnique s →
     (s.port p).readyHead g = some r → r.kind = .hold →
     ((∀ i e, s.hold i = some e → e.key ≠ r.key) →
       (∀ i, s.hold i = none → (∀ j, j < i → s.hold j ≠ none) → exec (.holdSettlement p g) s =
         .next ((s.setHold i (some ⟨r.key, p, r.holdLimit.getD 1, []⟩)).completeReq p r
           { status := .holdGranted, holdRemaining := some (r.holdLimit.getD 1) })) ∧
       ((∀ i, s.hold i ≠ none) →
         exec (.holdSettlement p g) s = .next (s.completeReq p r { status := .holdTableFull }))) ∧
     ∀ i e, s.hold i = some e → e.key = r.key →
       (e.holder = p → exec (.holdSettlement p g) s = .next (s.completeReq p r { status := .alreadyHolding })) ∧
       (e.holder ≠ p → exec (.holdSettlement p g) s =
         .next ((s.setHold i (some { e with waiters := e.waiters ++ [⟨p, r.tag, r.holdLimit.getD 1⟩] })).modifyPort p
           fun ps => { ps with reqs := ps.reqs.map fun x =>
             if x.tag == r.tag then { x with state := .waitingHold } else x }))) ∧
  ((∀ (s : State) (p : Port) (g : Seg) (r : Request), s.held = false → HoldKeysUnique s →
     (s.port p).readyHead g = some r → r.kind = .release →
     (∀ i e, s.hold i = some e → e.key = r.key → e.holder = p → exec (.releaseSettlement p g) s =
       .next ((s.handOver i).completeReq p r { status := .released })) ∧
     ((∀ i e, s.hold i = some e → e.key = r.key → e.holder ≠ p) →
       exec (.releaseSettlement p g) s = .next (s.completeReq p r { status := .notHolder }))) ∧
   ∀ (s : State) (p : Port) (g : Seg),
     ((∀ r, (s.port p).readyHead g = some r → r.kind ≠ .hold) → exec (.holdSettlement p g) s = .next s) ∧
     ((∀ r, (s.port p).readyHead g = some r → r.kind ≠ .release) → exec (.releaseSettlement p g) s = .next s))

/-- A hand-over frees the entry, or makes the first waiter the holder with its own limit and completes its HOLD
HOLD_GRANTED (R57). A ten-millisecond mark decreases the remaining time of one used entry; at 0 the holder gets a
hold-end record EXPIRED and the hold is handed over (R63, R64). HOLD_EXPIRY is the decrease that brings it to 0
(log 12). A hold of limit 1 that was handed over just before its decrease expires too, by the model's choice (log 28). -/
def Obligations.HandOverAndExpiry : Prop :=
  (∀ (s : State) (i : HoldIdx) (e : HoldEntry), s.hold i = some e →
     (e.waiters = [] → s.handOver i = s.setHold i none) ∧
     ∀ w ws r, e.waiters = w :: ws → (s.port w.port).reqs.find? (fun x => x.tag == w.tag) = some r →
       s.handOver i = (s.setHold i (some ⟨e.key, w.port, w.limit, ws⟩)).completeReq w.port r
         { status := .holdGranted, holdRemaining := some w.limit }) ∧
  (∀ (s : State) (i : HoldIdx), s.held = false →
     (s.hold i = none → exec (.holdDecrease i) s = .next s ∧ exec (.holdExpiry i) s = .next s) ∧
     ∀ e, s.hold i = some e →
       (1 < e.remaining →
         exec (.holdDecrease i) s = .next (s.setHold i (some { e with remaining := e.remaining - 1 })) ∧
         exec (.holdExpiry i) s = .next s) ∧
       (e.remaining ≤ 1 →
         exec (.holdDecrease i) s =
           .next ((s.modifyPort e.holder fun ps => ps.addHoldEnd ⟨e.key, .expired⟩).handOver i) ∧
         exec (.holdExpiry i) s = exec (.holdDecrease i) s))

/-! ### Transactions and the bus -/

/-- The elements of a transaction, in order, by the kind of the granted work (R90, R93), and how a transaction ends by
the acknowledge bits it reads from the target (R94). -/
def Obligations.TransactionElementsAndOutcome : Prop :=
  (∀ (a : Addr) (w : List Byte) (n : Nat),
     let read (k : Nat) : List BusElement := List.replicate (k - 1) (.read true) ++ [.read false]
     (⟨a, [], 0⟩ : Work).elements = [.start, .address (a ++ 0#1), .stop] ∧
     (w ≠ [] → (⟨a, w, 0⟩ : Work).elements = [.start, .address (a ++ 0#1)] ++ w.map .write ++ [.stop]) ∧
     (0 < n → (⟨a, [], n⟩ : Work).elements = [.start, .address (a ++ 1#1)] ++ read n ++ [.stop]) ∧
     (w ≠ [] → 0 < n → (⟨a, w, n⟩ : Work).elements =
       [.start, .address (a ++ 0#1)] ++ w.map .write ++ [.restart, .address (a ++ 1#1)] ++ read n ++ [.stop])) ∧
  (∀ (w : Work) (acks : List Bool) (data : List Byte),
     (w.ending (false :: acks) data = { status := .addrNack }) ∧
     (∀ k, k < w.write.length → w.ending (true :: List.replicate k true ++ false :: acks) data =
       { status := .dataNack, ackCount := k }) ∧
     (w.write ≠ [] → w.readLen ≠ 0 →
       w.ending (true :: List.replicate w.write.length true ++ false :: acks) data =
         { status := .addrNack, ackCount := w.write.length }) ∧
     (data.length = w.readLen →
       w.ending (true :: List.replicate w.write.length true ++ true :: acks) data =
         { status := .done, ackCount := w.write.length, readData := data } ∧
       (w.write = [] ∨ w.readLen = 0 →
         w.ending (true :: List.replicate w.write.length true) data =
           { status := .done, ackCount := w.write.length, readData := data })))

/-- The outcome of a transaction is handed to its owner: to the port's IN_FLIGHT request on the segment, to the poll
engine, or to nobody when the transaction is being cut (R94, R109). A completion of a poll instance clears the mark; a
discarded one stores nothing; any other stores status and sequence, a DONE also data, validity and age 0, and a DONE
whose data changed tells the notify set (R120, R121). -/
def Obligations.OutcomesReachTheirOwners : Prop :=
  (∀ (s : State) (g : Seg) (e : Ending),
     (∀ p r, (s.port p).reqs.find? (fun x => x.state = .inFlight && x.key.seg == g) = some r →
       s.handOutcome g (.port p) e = s.completeReq p r e) ∧
     (∀ n, s.handOutcome g (.poll n) e = s.completePoll n e.status e.readData) ∧
     ∀ c, s.handOutcome g (.cut c) e = s) ∧
  (∀ (s : State) (n : PollIdx) (st : Status) (data : List Byte),
     let e := s.poll n
     let told (changed : Bool) : State := s.mapPorts fun p ps =>
       if changed = true ∧ e.config.notify.getLsbD p.val = true then ps.addNotices (.ofPoll n) else ps
     (e.discard = true → s.completePoll n st data = s.setPoll n { e with mark := .none, discard := false }) ∧
     (e.discard = false → st ≠ .done → s.completePoll n st data = s.setPoll n
       { e with mark := .none, result := { e.result with status := some st, sequence := e.result.sequence + 1 } }) ∧
     (e.discard = false → s.completePoll n .done data =
       (told (!e.result.valid || e.result.data != data)).setPoll n
         { e with mark := .none, result := ⟨some .done, e.result.sequence + 1, true, data, 0⟩ }))

/-- The end of a transaction that is not being cut counts its not-acknowledge, returns tries to 0, hands its outcome
over, and returns the engine to IDLE, or to DISABLED with a disable pending (R94, R99, R104, R108). A transaction that
is being cut ends by CUT_END instead (R109): that TRANSACTION_END then changes nothing is the model's choice (log 2). -/
def Obligations.TransactionEndReturnsToIdle : Prop :=
  (∀ (s : State) (g : Seg) (x : Transaction) (c : CutCause) (acks : List Bool) (data : List Byte), s.held = false →
    (s.engine g).state = .active x → x.carrier = .cut c → exec (.transactionEnd g acks data) s = .next s) ∧
  ∀ (s : State) (g : Seg) (x : Transaction) (acks : List Bool) (data : List Byte), s.held = false →
    (s.engine g).state = .active x → (∀ c, x.carrier ≠ .cut c) →
    let e := s.engine g
    let out := x.work.ending acks data
    let u := (s.setEngine g { e with
      tries := 0
      stats := { e.stats with
        addrNacks := if out.status = .addrNack then min (e.stats.addrNacks + 1) 65535 else e.stats.addrNacks
        dataNacks := if out.status = .dataNack then min (e.stats.dataNacks + 1) 65535 else e.stats.dataNacks } }
      ).handOutcome g x.carrier out
    (e.disablePending = false →
      exec (.transactionEnd g acks data) s = .next (u.setEngine g { u.engine g with state := .idle })) ∧
    (e.disablePending = true → exec (.transactionEnd g acks data) s = .next (u.enterDisabled g))

/-- LINE_CONFLICT and TIMEOUT end a transaction at once: each is counted, the owner receives the write bytes
acknowledged so far, and the engine enters DISABLED with a disable pending; else a LINE_CONFLICT leads to CHECKING, and
a TIMEOUT to RECOVERING with one more try, or to FAULTED with NOT_FREE when two tries are used (R95, R96, R99, R104,
R109). -/
def Obligations.ConflictAndTimeoutEndTheTransaction : Prop :=
  (∀ (s : State) (g : Seg) (x : Transaction) (acks : List Bool), s.held = false → (s.engine g).state = .active x →
     let e := s.engine g
     let u := (s.setEngine g { e with
       stats := { e.stats with lineConflicts := min (e.stats.lineConflicts + 1) 65535 } }).handOutcome g x.carrier
         { status := .lineConflict, ackCount := x.work.ackedWrites acks }
     (e.disablePending = false →
       exec (.lineConflict g acks) s = .next (u.setEngine g { u.engine g with state := .checking 0 0 })) ∧
     (e.disablePending = true → exec (.lineConflict g acks) s = .next (u.enterDisabled g))) ∧
  (∀ (s : State) (g : Seg) (x : Transaction) (acks : List Bool), s.held = false → (s.engine g).state = .active x →
     let e := s.engine g
     let u := (s.setEngine g { e with
       stats := { e.stats with timeouts := min (e.stats.timeouts + 1) 65535 } }).handOutcome g x.carrier
         { status := .timeout, ackCount := x.work.ackedWrites acks }
     (e.disablePending = true → exec (.timeout g acks) s = .next (u.enterDisabled g)) ∧
     (e.disablePending = false → e.tries < 2 → exec (.timeout g acks) s = .next (u.setEngine g
       { u.engine g with
         state := .recovering .waitScl 0 false
         tries := e.tries + 1
         stats := { (u.engine g).stats with recoveries := min (e.stats.recoveries + 1) 65535 } })) ∧
     (e.disablePending = false → 2 ≤ e.tries → exec (.timeout g acks) s = .next (u.enterFaulted g .notFree)))

/-- A line seen low in IDLE leads to CHECKING; the free window, when it completes, leads to IDLE and a low restarts it
alone; the end of the limit window leads to RECOVERING with one more try, or to FAULTED with NOT_FREE when two tries are
used (R97, R98, R99). That a low line seen in any other state than IDLE changes nothing is the model's choice (log 2).
The end of a cut leads to IDLE after a port reset and to CHECKING after a HUB RESET, or to DISABLED
with a disable pending (R109). -/
def Obligations.CheckingWindowsAndCutEnds : Prop :=
  (∀ (s : State) (g : Seg), s.held = false →
     let e := s.engine g
     (e.state = .idle → exec (.lineLowInIdle g) s = .next (s.setEngine g { e with state := .checking 0 0 })) ∧
     (e.state ≠ .idle → exec (.lineLowInIdle g) s = .next s) ∧
     (∀ free limit, e.state = .checking free limit →
       exec (.freeWindowComplete g) s = .next (s.setEngine g { e with state := .idle }) ∧
       exec (.freeWindowRestart g) s = .next (s.setEngine g { e with state := .checking 0 limit }) ∧
       (e.tries < 2 → exec (.limitWindowEnd g) s = .next (s.setEngine g { e with
         state := .recovering .waitScl 0 false
         tries := e.tries + 1
         stats := { e.stats with recoveries := min (e.stats.recoveries + 1) 65535 } })) ∧
       (2 ≤ e.tries → exec (.limitWindowEnd g) s = .next (s.enterFaulted g .notFree)))) ∧
  (∀ (s : State) (g : Seg) (x : Transaction) (c : CutCause), s.held = false → (s.engine g).state = .active x →
     x.carrier = .cut c →
     ((s.engine g).disablePending = false → exec (.cutEnd g) s = .next (s.setEngine g
       { s.engine g with state := if c = .portReset then .idle else .checking 0 0 })) ∧
     ((s.engine g).disablePending = true → exec (.cutEnd g) s = .next (s.enterDisabled g)))

/-- The steps of RECOVERING (R100): SCL high leads to the stop or to the first pulse by SDA, a pulse to the stop, the
next pulse or SDA_STUCK after the ninth, the stop to CHECKING, a wait that ends with SCL low to SCL_STUCK. With a disable
pending a pulse or stop ends DISABLED (R103); after a HUB RESET it ends in CHECKING (R112). That a wait which ends with
SCL low and a disable pending also ends DISABLED, and one after a HUB RESET in FAULTED, is the model's reading
(log 10). -/
def Obligations.RecoveryStepsAndInterruptions : Prop :=
  (∀ (s : State) (g : Seg), s.held = false → (s.engine g).disablePending = false →
     let e := s.engine g
     let go (st : EngineState) : Host.Outcome State Fault Refusal := .next (s.setEngine g { e with state := st })
     (∀ marks, e.state = .recovering .waitScl marks false →
       exec (.recoverySclHigh g true) s = go (.recovering .stop 0 false) ∧
       exec (.recoverySclHigh g false) s = go (.recovering (.pulse 1) 0 false)) ∧
     (∀ n marks, e.state = .recovering (.pulse n) marks false →
       exec (.recoveryPulseEnd g true) s = go (.recovering .stop 0 false) ∧
       (n < 9 → exec (.recoveryPulseEnd g false) s = go (.recovering (.pulse (n + 1)) 0 false)) ∧
       (9 ≤ n → exec (.recoveryPulseEnd g false) s = .next (s.enterFaulted g .sdaStuck))) ∧
     (∀ marks, e.state = .recovering .stop marks false → exec (.recoveryStopEnd g) s = go (.checking 0 0)) ∧
     ∀ step marks, e.state = .recovering step marks false →
       exec (.recoverySclTimeout g) s = .next (s.enterFaulted g .sclStuck)) ∧
  (∀ (s : State) (g : Seg), s.held = false →
     let e := s.engine g
     (e.disablePending = true →
       (∀ n marks h sda, e.state = .recovering (.pulse n) marks h →
         exec (.recoveryPulseEnd g sda) s = .next (s.enterDisabled g)) ∧
       (∀ marks h, e.state = .recovering .stop marks h → exec (.recoveryStopEnd g) s = .next (s.enterDisabled g)) ∧
       ∀ step marks h, e.state = .recovering step marks h →
         exec (.recoverySclTimeout g) s = .next (s.enterDisabled g)) ∧
     (e.disablePending = false →
       (∀ n marks sda, e.state = .recovering (.pulse n) marks true →
         exec (.recoveryPulseEnd g sda) s = .next (s.setEngine g { e with state := .checking 0 0 })) ∧
       (∀ marks, e.state = .recovering .stop marks true →
         exec (.recoveryStopEnd g) s = .next (s.setEngine g { e with state := .checking 0 0 })) ∧
       ∀ step marks, e.state = .recovering step marks true →
         exec (.recoverySclTimeout g) s = .next (s.enterFaulted g .sclStuck)))

/-- In which states an engine drives SCL and SDA and in which it acts on them: in RECOVERING both are released through
the wait of step 1, SDA except for the stop (R89, R100, R111); bits and pulses themselves are below the model (log 18).
MISOx is driven exactly while CSxN is low on a RUNNING port; it carries 0x00 through the request part and the gap byte,
then the reply part of the frame taken, then 0x00 (R154, R159, R163). CSxN and the bytes clocked so far are the view's
input, no state (log 17); that bytes which are not a frame, with no frame taken,
are answered with 0x00 too is the model's choice (log 29). -/
def Obligations.LinesAndMisoFollowTheState : Prop :=
  (∀ (s : State) (g : Seg),
     (s.held = true → s.drivesScl g = false ∧ s.drivesSda g = false ∧ s.watchesLines g = false) ∧
     (s.held = false →
       (s.drivesScl g = true ↔
         (∃ x, (s.engine g).state = .active x) ∨
         (∃ n marks h, (s.engine g).state = .recovering (.pulse n) marks h) ∨
         ∃ marks h, (s.engine g).state = .recovering .stop marks h) ∧
       (s.drivesSda g = true ↔
         (∃ x, (s.engine g).state = .active x) ∨ ∃ marks h, (s.engine g).state = .recovering .stop marks h) ∧
       (s.watchesLines g = true ↔ (s.engine g).state ≠ .faulted ∧ (s.engine g).state ≠ .disabled))) ∧
  (∀ (s : State) (p : Port) (wire : Option (List Byte)),
     s.misoByte p wire ≠ none ↔ s.running p = true ∧ wire ≠ none) ∧
  ∀ (s : State) (p : Port) (bytes : List Byte), s.running p = true →
    (frameCommands p bytes = [.framingError p] → s.misoByte p (some bytes) = some 0x00) ∧
    ((s.port p).frame = none → s.misoByte p (some bytes) = some 0x00) ∧
    ∀ f, (s.port p).frame = some f →
      (bytes.length ≤ f.requestLen → s.misoByte p (some bytes) = some 0x00) ∧
      (∀ j b, frameCommands p bytes ≠ [.framingError p] → bytes.length = f.requestLen + 1 + j → f.reply[j]? = some b →
        s.misoByte p (some bytes) = some b) ∧
      (f.requestLen + 1 + f.reply.length ≤ bytes.length → s.misoByte p (some bytes) = some 0x00)

/-! ### What every step keeps -/

/-- Every invariant below holds at reset. -/
def Obligations.InvariantsHoldAtReset : Prop :=
  AliasesUnique State.reset ∧ SemaphoresSound State.reset ∧ RequestBounds State.reset ∧ EnginesSound State.reset ∧
    DeficitBounds State.reset ∧ DueSound State.reset ∧ LanesSound State.reset ∧ InFlightSound State.reset ∧
    OfflineSegmentsIdle State.reset ∧ HoldKeysUnique State.reset ∧ WaitersSound State.reset ∧
    ResetPortsEmpty State.reset

/-- Every step keeps that no two valid route entries share an alias (R21). -/
def Obligations.StepKeepsAliasesUnique : Prop :=
  ∀ s t : State, AliasesUnique s → step s = .next t → AliasesUnique t

/-- Every step keeps that semaphore 0 is owned only by a SUPERVISOR, that a free semaphore has no interest set and that
no owner stands in its own (R146). -/
def Obligations.StepKeepsSemaphoresSound : Prop :=
  ∀ s t : State, SemaphoresSound s → step s = .next t → SemaphoresSound t

/-- Every step keeps the bounds of 16 open requests and of 16 stored results plus reservations, one reservation per open
non-posted request, and no tag twice (R8, R13, R14, R131). The premises beside the bounds rule out states in which a hold
waits for its own holder; StepKeepsLanesAndEnginesTogether and StepKeepsTheHoldTableSound say that every step keeps
them. -/
def Obligations.StepKeepsRequestBounds : Prop :=
  ∀ s t : State, RequestBounds s → LanesSound s → HoldKeysUnique s → WaitersSound s → step s = .next t →
    RequestBounds t

/-- Every step keeps that a disable is pending only where R103 sets it, the bounds of tries and fault count, and that what
a transaction has before it is what R93 gives, or what R109 leaves of it at a cut. -/
def Obligations.StepKeepsEnginesSound : Prop :=
  ∀ s t : State, EnginesSound s → step s = .next t → EnginesSound t

/-- Every step keeps each deficit within its quantum plus 64, and within 64 for a contender that is not current, and
the PRIORITY values of the deficits; and that a ranking names each contender once (R71, R83). -/
def Obligations.StepKeepsDeficitBounds : Prop :=
  ∀ s t : State, DeficitBounds s → step s = .next t → DeficitBounds t

/-- Every step keeps that a poll entry stands at most once among the due lists and the transactions, where its mark says
(R117), and that its discard flag is set only while it is IN_FLIGHT (R114). -/
def Obligations.StepKeepsDueListsSound : Prop :=
  ∀ s t : State, DueSound s → step s = .next t → DueSound t

/-- Every step keeps that only the head of a lane is IN_FLIGHT or WAITING_HOLD, that a request is IN_FLIGHT exactly while
its segment's engine carries it, and that an offline segment has no request, due poll or hold (R38, R52, R67, R102). -/
def Obligations.StepKeepsLanesAndEnginesTogether : Prop :=
  ∀ s t : State, RequestBounds s → LanesSound s → InFlightSound s → OfflineSegmentsIdle s → HoldKeysUnique s →
    WaitersSound s → step s = .next t → LanesSound t ∧ InFlightSound t ∧ OfflineSegmentsIdle t

/-- Every step keeps that a key has one hold entry, and that waiters are the open WAITING_HOLD requests, never the
holder and never one port twice (R53, R54). -/
def Obligations.StepKeepsTheHoldTableSound : Prop :=
  ∀ s t : State, RequestBounds s → LanesSound s → HoldKeysUnique s → WaitersSound s → step s = .next t →
    HoldKeysUnique t ∧ WaitersSound t

/-- Every step keeps that a port which is IN_RESET has no request, record, semaphore, hold or wait (R159). -/
def Obligations.StepKeepsResetPortsEmpty : Prop :=
  ∀ s t : State, ResetPortsEmpty s → step s = .next t → ResetPortsEmpty t

end
end

