-- ==== Sys2Proof/Laws/State.lean ====
section
/-! SUPPORT. What each update of one part of the state leaves in every part: one lemma per update and part, true by
definition, and what the update puts where it writes. -/

namespace Sys2Proof.Machine.State

variable (s : State)

/-! ### setPort -/

@[simp] theorem setPort_held (p : Port) (x : PortState) : (s.setPort p x).held = s.held := rfl
@[simp] theorem setPort_routes (p : Port) (x : PortState) : (s.setPort p x).routes = s.routes := rfl
@[simp] theorem setPort_holds (p : Port) (x : PortState) : (s.setPort p x).holds = s.holds := rfl
@[simp] theorem setPort_arbiters (p : Port) (x : PortState) : (s.setPort p x).arbiters = s.arbiters := rfl
@[simp] theorem setPort_engines (p : Port) (x : PortState) : (s.setPort p x).engines = s.engines := rfl
@[simp] theorem setPort_due (p : Port) (x : PortState) : (s.setPort p x).due = s.due := rfl
@[simp] theorem setPort_polls (p : Port) (x : PortState) : (s.setPort p x).polls = s.polls := rfl
@[simp] theorem setPort_sems (p : Port) (x : PortState) : (s.setPort p x).sems = s.sems := rfl
@[simp] theorem setPort_tenth (p : Port) (x : PortState) : (s.setPort p x).tenth = s.tenth := rfl
@[simp] theorem setPort_freeCount (p : Port) (x : PortState) : (s.setPort p x).freeCount = s.freeCount := rfl
@[simp] theorem setPort_pending (p : Port) (x : PortState) : (s.setPort p x).pending = s.pending := rfl
@[simp] theorem setPort_engine (p : Port) (x : PortState) (k : Seg) : (s.setPort p x).engine k = s.engine k := rfl
@[simp] theorem setPort_arbiter (p : Port) (x : PortState) (k : Seg) : (s.setPort p x).arbiter k = s.arbiter k := rfl
@[simp] theorem setPort_route (p : Port) (x : PortState) (k : RouteIdx) : (s.setPort p x).route k = s.route k := rfl
@[simp] theorem setPort_hold (p : Port) (x : PortState) (k : HoldIdx) : (s.setPort p x).hold k = s.hold k := rfl
@[simp] theorem setPort_poll (p : Port) (x : PortState) (k : PollIdx) : (s.setPort p x).poll k = s.poll k := rfl
@[simp] theorem setPort_sem (p : Port) (x : PortState) (k : SemIdx) : (s.setPort p x).sem k = s.sem k := rfl
@[simp] theorem setPort_dueOf (p : Port) (x : PortState) (k : Seg) : (s.setPort p x).dueOf k = s.dueOf k := rfl

theorem setPort_port (p p' : Port) (x : PortState) : (s.setPort p x).port p' = if p = p' then x else s.port p' := by
  simp [setPort, port, Vector.getElem_set, Fin.ext_iff]

@[simp] theorem setPort_port_self (p : Port) (x : PortState) : (s.setPort p x).port p = x := by
  simp [setPort_port]

theorem setPort_port_ne {p p' : Port} (h : p ≠ p') (x : PortState) : (s.setPort p x).port p' = s.port p' := by
  simp [setPort_port, h]

theorem setPort_setPort (p : Port) (x y : PortState) : (s.setPort p x).setPort p y = s.setPort p y := by
  simp [setPort]

/-! ### setEngine -/

@[simp] theorem setEngine_held (g : Seg) (x : Engine) : (s.setEngine g x).held = s.held := rfl
@[simp] theorem setEngine_ports (g : Seg) (x : Engine) : (s.setEngine g x).ports = s.ports := rfl
@[simp] theorem setEngine_routes (g : Seg) (x : Engine) : (s.setEngine g x).routes = s.routes := rfl
@[simp] theorem setEngine_holds (g : Seg) (x : Engine) : (s.setEngine g x).holds = s.holds := rfl
@[simp] theorem setEngine_arbiters (g : Seg) (x : Engine) : (s.setEngine g x).arbiters = s.arbiters := rfl
@[simp] theorem setEngine_due (g : Seg) (x : Engine) : (s.setEngine g x).due = s.due := rfl
@[simp] theorem setEngine_polls (g : Seg) (x : Engine) : (s.setEngine g x).polls = s.polls := rfl
@[simp] theorem setEngine_sems (g : Seg) (x : Engine) : (s.setEngine g x).sems = s.sems := rfl
@[simp] theorem setEngine_tenth (g : Seg) (x : Engine) : (s.setEngine g x).tenth = s.tenth := rfl
@[simp] theorem setEngine_freeCount (g : Seg) (x : Engine) : (s.setEngine g x).freeCount = s.freeCount := rfl
@[simp] theorem setEngine_pending (g : Seg) (x : Engine) : (s.setEngine g x).pending = s.pending := rfl
@[simp] theorem setEngine_port (g : Seg) (x : Engine) (k : Port) : (s.setEngine g x).port k = s.port k := rfl
@[simp] theorem setEngine_arbiter (g : Seg) (x : Engine) (k : Seg) : (s.setEngine g x).arbiter k = s.arbiter k := rfl
@[simp] theorem setEngine_route (g : Seg) (x : Engine) (k : RouteIdx) : (s.setEngine g x).route k = s.route k := rfl
@[simp] theorem setEngine_hold (g : Seg) (x : Engine) (k : HoldIdx) : (s.setEngine g x).hold k = s.hold k := rfl
@[simp] theorem setEngine_poll (g : Seg) (x : Engine) (k : PollIdx) : (s.setEngine g x).poll k = s.poll k := rfl
@[simp] theorem setEngine_sem (g : Seg) (x : Engine) (k : SemIdx) : (s.setEngine g x).sem k = s.sem k := rfl
@[simp] theorem setEngine_dueOf (g : Seg) (x : Engine) (k : Seg) : (s.setEngine g x).dueOf k = s.dueOf k := rfl

theorem setEngine_engine (g g' : Seg) (x : Engine) : (s.setEngine g x).engine g' = if g = g' then x else s.engine g' := by
  simp [setEngine, engine, Vector.getElem_set, Fin.ext_iff]

@[simp] theorem setEngine_engine_self (g : Seg) (x : Engine) : (s.setEngine g x).engine g = x := by
  simp [setEngine_engine]

theorem setEngine_engine_ne {g g' : Seg} (h : g ≠ g') (x : Engine) : (s.setEngine g x).engine g' = s.engine g' := by
  simp [setEngine_engine, h]

theorem setEngine_setEngine (g : Seg) (x y : Engine) : (s.setEngine g x).setEngine g y = s.setEngine g y := by
  simp [setEngine]

/-! ### setArbiter -/

@[simp] theorem setArbiter_held (g : Seg) (x : Arbiter) : (s.setArbiter g x).held = s.held := rfl
@[simp] theorem setArbiter_ports (g : Seg) (x : Arbiter) : (s.setArbiter g x).ports = s.ports := rfl
@[simp] theorem setArbiter_routes (g : Seg) (x : Arbiter) : (s.setArbiter g x).routes = s.routes := rfl
@[simp] theorem setArbiter_holds (g : Seg) (x : Arbiter) : (s.setArbiter g x).holds = s.holds := rfl
@[simp] theorem setArbiter_engines (g : Seg) (x : Arbiter) : (s.setArbiter g x).engines = s.engines := rfl
@[simp] theorem setArbiter_due (g : Seg) (x : Arbiter) : (s.setArbiter g x).due = s.due := rfl
@[simp] theorem setArbiter_polls (g : Seg) (x : Arbiter) : (s.setArbiter g x).polls = s.polls := rfl
@[simp] theorem setArbiter_sems (g : Seg) (x : Arbiter) : (s.setArbiter g x).sems = s.sems := rfl
@[simp] theorem setArbiter_tenth (g : Seg) (x : Arbiter) : (s.setArbiter g x).tenth = s.tenth := rfl
@[simp] theorem setArbiter_freeCount (g : Seg) (x : Arbiter) : (s.setArbiter g x).freeCount = s.freeCount := rfl
@[simp] theorem setArbiter_pending (g : Seg) (x : Arbiter) : (s.setArbiter g x).pending = s.pending := rfl
@[simp] theorem setArbiter_port (g : Seg) (x : Arbiter) (k : Port) : (s.setArbiter g x).port k = s.port k := rfl
@[simp] theorem setArbiter_engine (g : Seg) (x : Arbiter) (k : Seg) : (s.setArbiter g x).engine k = s.engine k := rfl
@[simp] theorem setArbiter_route (g : Seg) (x : Arbiter) (k : RouteIdx) : (s.setArbiter g x).route k = s.route k := rfl
@[simp] theorem setArbiter_hold (g : Seg) (x : Arbiter) (k : HoldIdx) : (s.setArbiter g x).hold k = s.hold k := rfl
@[simp] theorem setArbiter_poll (g : Seg) (x : Arbiter) (k : PollIdx) : (s.setArbiter g x).poll k = s.poll k := rfl
@[simp] theorem setArbiter_sem (g : Seg) (x : Arbiter) (k : SemIdx) : (s.setArbiter g x).sem k = s.sem k := rfl
@[simp] theorem setArbiter_dueOf (g : Seg) (x : Arbiter) (k : Seg) : (s.setArbiter g x).dueOf k = s.dueOf k := rfl

theorem setArbiter_arbiter (g g' : Seg) (x : Arbiter) : (s.setArbiter g x).arbiter g' = if g = g' then x else s.arbiter g' := by
  simp [setArbiter, arbiter, Vector.getElem_set, Fin.ext_iff]

@[simp] theorem setArbiter_arbiter_self (g : Seg) (x : Arbiter) : (s.setArbiter g x).arbiter g = x := by
  simp [setArbiter_arbiter]

theorem setArbiter_arbiter_ne {g g' : Seg} (h : g ≠ g') (x : Arbiter) : (s.setArbiter g x).arbiter g' = s.arbiter g' := by
  simp [setArbiter_arbiter, h]

theorem setArbiter_setArbiter (g : Seg) (x y : Arbiter) : (s.setArbiter g x).setArbiter g y = s.setArbiter g y := by
  simp [setArbiter]

/-! ### setRoute -/

@[simp] theorem setRoute_held (i : RouteIdx) (x : RouteEntry) : (s.setRoute i x).held = s.held := rfl
@[simp] theorem setRoute_ports (i : RouteIdx) (x : RouteEntry) : (s.setRoute i x).ports = s.ports := rfl
@[simp] theorem setRoute_holds (i : RouteIdx) (x : RouteEntry) : (s.setRoute i x).holds = s.holds := rfl
@[simp] theorem setRoute_arbiters (i : RouteIdx) (x : RouteEntry) : (s.setRoute i x).arbiters = s.arbiters := rfl
@[simp] theorem setRoute_engines (i : RouteIdx) (x : RouteEntry) : (s.setRoute i x).engines = s.engines := rfl
@[simp] theorem setRoute_due (i : RouteIdx) (x : RouteEntry) : (s.setRoute i x).due = s.due := rfl
@[simp] theorem setRoute_polls (i : RouteIdx) (x : RouteEntry) : (s.setRoute i x).polls = s.polls := rfl
@[simp] theorem setRoute_sems (i : RouteIdx) (x : RouteEntry) : (s.setRoute i x).sems = s.sems := rfl
@[simp] theorem setRoute_tenth (i : RouteIdx) (x : RouteEntry) : (s.setRoute i x).tenth = s.tenth := rfl
@[simp] theorem setRoute_freeCount (i : RouteIdx) (x : RouteEntry) : (s.setRoute i x).freeCount = s.freeCount := rfl
@[simp] theorem setRoute_pending (i : RouteIdx) (x : RouteEntry) : (s.setRoute i x).pending = s.pending := rfl
@[simp] theorem setRoute_port (i : RouteIdx) (x : RouteEntry) (k : Port) : (s.setRoute i x).port k = s.port k := rfl
@[simp] theorem setRoute_engine (i : RouteIdx) (x : RouteEntry) (k : Seg) : (s.setRoute i x).engine k = s.engine k := rfl
@[simp] theorem setRoute_arbiter (i : RouteIdx) (x : RouteEntry) (k : Seg) : (s.setRoute i x).arbiter k = s.arbiter k := rfl
@[simp] theorem setRoute_hold (i : RouteIdx) (x : RouteEntry) (k : HoldIdx) : (s.setRoute i x).hold k = s.hold k := rfl
@[simp] theorem setRoute_poll (i : RouteIdx) (x : RouteEntry) (k : PollIdx) : (s.setRoute i x).poll k = s.poll k := rfl
@[simp] theorem setRoute_sem (i : RouteIdx) (x : RouteEntry) (k : SemIdx) : (s.setRoute i x).sem k = s.sem k := rfl
@[simp] theorem setRoute_dueOf (i : RouteIdx) (x : RouteEntry) (k : Seg) : (s.setRoute i x).dueOf k = s.dueOf k := rfl

theorem setRoute_route (i i' : RouteIdx) (x : RouteEntry) : (s.setRoute i x).route i' = if i = i' then x else s.route i' := by
  simp [setRoute, route, Vector.getElem_set, Fin.ext_iff]

@[simp] theorem setRoute_route_self (i : RouteIdx) (x : RouteEntry) : (s.setRoute i x).route i = x := by
  simp [setRoute_route]

theorem setRoute_route_ne {i i' : RouteIdx} (h : i ≠ i') (x : RouteEntry) : (s.setRoute i x).route i' = s.route i' := by
  simp [setRoute_route, h]

theorem setRoute_setRoute (i : RouteIdx) (x y : RouteEntry) : (s.setRoute i x).setRoute i y = s.setRoute i y := by
  simp [setRoute]

/-! ### setHold -/

@[simp] theorem setHold_held (i : HoldIdx) (x : Option HoldEntry) : (s.setHold i x).held = s.held := rfl
@[simp] theorem setHold_ports (i : HoldIdx) (x : Option HoldEntry) : (s.setHold i x).ports = s.ports := rfl
@[simp] theorem setHold_routes (i : HoldIdx) (x : Option HoldEntry) : (s.setHold i x).routes = s.routes := rfl
@[simp] theorem setHold_arbiters (i : HoldIdx) (x : Option HoldEntry) : (s.setHold i x).arbiters = s.arbiters := rfl
@[simp] theorem setHold_engines (i : HoldIdx) (x : Option HoldEntry) : (s.setHold i x).engines = s.engines := rfl
@[simp] theorem setHold_due (i : HoldIdx) (x : Option HoldEntry) : (s.setHold i x).due = s.due := rfl
@[simp] theorem setHold_polls (i : HoldIdx) (x : Option HoldEntry) : (s.setHold i x).polls = s.polls := rfl
@[simp] theorem setHold_sems (i : HoldIdx) (x : Option HoldEntry) : (s.setHold i x).sems = s.sems := rfl
@[simp] theorem setHold_tenth (i : HoldIdx) (x : Option HoldEntry) : (s.setHold i x).tenth = s.tenth := rfl
@[simp] theorem setHold_freeCount (i : HoldIdx) (x : Option HoldEntry) : (s.setHold i x).freeCount = s.freeCount := rfl
@[simp] theorem setHold_pending (i : HoldIdx) (x : Option HoldEntry) : (s.setHold i x).pending = s.pending := rfl
@[simp] theorem setHold_port (i : HoldIdx) (x : Option HoldEntry) (k : Port) : (s.setHold i x).port k = s.port k := rfl
@[simp] theorem setHold_engine (i : HoldIdx) (x : Option HoldEntry) (k : Seg) : (s.setHold i x).engine k = s.engine k := rfl
@[simp] theorem setHold_arbiter (i : HoldIdx) (x : Option HoldEntry) (k : Seg) : (s.setHold i x).arbiter k = s.arbiter k := rfl
@[simp] theorem setHold_route (i : HoldIdx) (x : Option HoldEntry) (k : RouteIdx) : (s.setHold i x).route k = s.route k := rfl
@[simp] theorem setHold_poll (i : HoldIdx) (x : Option HoldEntry) (k : PollIdx) : (s.setHold i x).poll k = s.poll k := rfl
@[simp] theorem setHold_sem (i : HoldIdx) (x : Option HoldEntry) (k : SemIdx) : (s.setHold i x).sem k = s.sem k := rfl
@[simp] theorem setHold_dueOf (i : HoldIdx) (x : Option HoldEntry) (k : Seg) : (s.setHold i x).dueOf k = s.dueOf k := rfl

theorem setHold_hold (i i' : HoldIdx) (x : Option HoldEntry) : (s.setHold i x).hold i' = if i = i' then x else s.hold i' := by
  simp [setHold, hold, Vector.getElem_set, Fin.ext_iff]

@[simp] theorem setHold_hold_self (i : HoldIdx) (x : Option HoldEntry) : (s.setHold i x).hold i = x := by
  simp [setHold_hold]

theorem setHold_hold_ne {i i' : HoldIdx} (h : i ≠ i') (x : Option HoldEntry) : (s.setHold i x).hold i' = s.hold i' := by
  simp [setHold_hold, h]

theorem setHold_setHold (i : HoldIdx) (x y : Option HoldEntry) : (s.setHold i x).setHold i y = s.setHold i y := by
  simp [setHold]

/-! ### setPoll -/

@[simp] theorem setPoll_held (n : PollIdx) (x : PollEntry) : (s.setPoll n x).held = s.held := rfl
@[simp] theorem setPoll_ports (n : PollIdx) (x : PollEntry) : (s.setPoll n x).ports = s.ports := rfl
@[simp] theorem setPoll_routes (n : PollIdx) (x : PollEntry) : (s.setPoll n x).routes = s.routes := rfl
@[simp] theorem setPoll_holds (n : PollIdx) (x : PollEntry) : (s.setPoll n x).holds = s.holds := rfl
@[simp] theorem setPoll_arbiters (n : PollIdx) (x : PollEntry) : (s.setPoll n x).arbiters = s.arbiters := rfl
@[simp] theorem setPoll_engines (n : PollIdx) (x : PollEntry) : (s.setPoll n x).engines = s.engines := rfl
@[simp] theorem setPoll_due (n : PollIdx) (x : PollEntry) : (s.setPoll n x).due = s.due := rfl
@[simp] theorem setPoll_sems (n : PollIdx) (x : PollEntry) : (s.setPoll n x).sems = s.sems := rfl
@[simp] theorem setPoll_tenth (n : PollIdx) (x : PollEntry) : (s.setPoll n x).tenth = s.tenth := rfl
@[simp] theorem setPoll_freeCount (n : PollIdx) (x : PollEntry) : (s.setPoll n x).freeCount = s.freeCount := rfl
@[simp] theorem setPoll_pending (n : PollIdx) (x : PollEntry) : (s.setPoll n x).pending = s.pending := rfl
@[simp] theorem setPoll_port (n : PollIdx) (x : PollEntry) (k : Port) : (s.setPoll n x).port k = s.port k := rfl
@[simp] theorem setPoll_engine (n : PollIdx) (x : PollEntry) (k : Seg) : (s.setPoll n x).engine k = s.engine k := rfl
@[simp] theorem setPoll_arbiter (n : PollIdx) (x : PollEntry) (k : Seg) : (s.setPoll n x).arbiter k = s.arbiter k := rfl
@[simp] theorem setPoll_route (n : PollIdx) (x : PollEntry) (k : RouteIdx) : (s.setPoll n x).route k = s.route k := rfl
@[simp] theorem setPoll_hold (n : PollIdx) (x : PollEntry) (k : HoldIdx) : (s.setPoll n x).hold k = s.hold k := rfl
@[simp] theorem setPoll_sem (n : PollIdx) (x : PollEntry) (k : SemIdx) : (s.setPoll n x).sem k = s.sem k := rfl
@[simp] theorem setPoll_dueOf (n : PollIdx) (x : PollEntry) (k : Seg) : (s.setPoll n x).dueOf k = s.dueOf k := rfl

theorem setPoll_poll (n n' : PollIdx) (x : PollEntry) : (s.setPoll n x).poll n' = if n = n' then x else s.poll n' := by
  simp [setPoll, poll, Vector.getElem_set, Fin.ext_iff]

@[simp] theorem setPoll_poll_self (n : PollIdx) (x : PollEntry) : (s.setPoll n x).poll n = x := by
  simp [setPoll_poll]

theorem setPoll_poll_ne {n n' : PollIdx} (h : n ≠ n') (x : PollEntry) : (s.setPoll n x).poll n' = s.poll n' := by
  simp [setPoll_poll, h]

theorem setPoll_setPoll (n : PollIdx) (x y : PollEntry) : (s.setPoll n x).setPoll n y = s.setPoll n y := by
  simp [setPoll]

/-! ### setSem -/

@[simp] theorem setSem_held (n : SemIdx) (x : Semaphore) : (s.setSem n x).held = s.held := rfl
@[simp] theorem setSem_ports (n : SemIdx) (x : Semaphore) : (s.setSem n x).ports = s.ports := rfl
@[simp] theorem setSem_routes (n : SemIdx) (x : Semaphore) : (s.setSem n x).routes = s.routes := rfl
@[simp] theorem setSem_holds (n : SemIdx) (x : Semaphore) : (s.setSem n x).holds = s.holds := rfl
@[simp] theorem setSem_arbiters (n : SemIdx) (x : Semaphore) : (s.setSem n x).arbiters = s.arbiters := rfl
@[simp] theorem setSem_engines (n : SemIdx) (x : Semaphore) : (s.setSem n x).engines = s.engines := rfl
@[simp] theorem setSem_due (n : SemIdx) (x : Semaphore) : (s.setSem n x).due = s.due := rfl
@[simp] theorem setSem_polls (n : SemIdx) (x : Semaphore) : (s.setSem n x).polls = s.polls := rfl
@[simp] theorem setSem_tenth (n : SemIdx) (x : Semaphore) : (s.setSem n x).tenth = s.tenth := rfl
@[simp] theorem setSem_freeCount (n : SemIdx) (x : Semaphore) : (s.setSem n x).freeCount = s.freeCount := rfl
@[simp] theorem setSem_pending (n : SemIdx) (x : Semaphore) : (s.setSem n x).pending = s.pending := rfl
@[simp] theorem setSem_port (n : SemIdx) (x : Semaphore) (k : Port) : (s.setSem n x).port k = s.port k := rfl
@[simp] theorem setSem_engine (n : SemIdx) (x : Semaphore) (k : Seg) : (s.setSem n x).engine k = s.engine k := rfl
@[simp] theorem setSem_arbiter (n : SemIdx) (x : Semaphore) (k : Seg) : (s.setSem n x).arbiter k = s.arbiter k := rfl
@[simp] theorem setSem_route (n : SemIdx) (x : Semaphore) (k : RouteIdx) : (s.setSem n x).route k = s.route k := rfl
@[simp] theorem setSem_hold (n : SemIdx) (x : Semaphore) (k : HoldIdx) : (s.setSem n x).hold k = s.hold k := rfl
@[simp] theorem setSem_poll (n : SemIdx) (x : Semaphore) (k : PollIdx) : (s.setSem n x).poll k = s.poll k := rfl
@[simp] theorem setSem_dueOf (n : SemIdx) (x : Semaphore) (k : Seg) : (s.setSem n x).dueOf k = s.dueOf k := rfl

theorem setSem_sem (n n' : SemIdx) (x : Semaphore) : (s.setSem n x).sem n' = if n = n' then x else s.sem n' := by
  simp [setSem, sem, Vector.getElem_set, Fin.ext_iff]

@[simp] theorem setSem_sem_self (n : SemIdx) (x : Semaphore) : (s.setSem n x).sem n = x := by
  simp [setSem_sem]

theorem setSem_sem_ne {n n' : SemIdx} (h : n ≠ n') (x : Semaphore) : (s.setSem n x).sem n' = s.sem n' := by
  simp [setSem_sem, h]

theorem setSem_setSem (n : SemIdx) (x y : Semaphore) : (s.setSem n x).setSem n y = s.setSem n y := by
  simp [setSem]

/-! ### setDue -/

@[simp] theorem setDue_held (g : Seg) (x : List PollIdx) : (s.setDue g x).held = s.held := rfl
@[simp] theorem setDue_ports (g : Seg) (x : List PollIdx) : (s.setDue g x).ports = s.ports := rfl
@[simp] theorem setDue_routes (g : Seg) (x : List PollIdx) : (s.setDue g x).routes = s.routes := rfl
@[simp] theorem setDue_holds (g : Seg) (x : List PollIdx) : (s.setDue g x).holds = s.holds := rfl
@[simp] theorem setDue_arbiters (g : Seg) (x : List PollIdx) : (s.setDue g x).arbiters = s.arbiters := rfl
@[simp] theorem setDue_engines (g : Seg) (x : List PollIdx) : (s.setDue g x).engines = s.engines := rfl
@[simp] theorem setDue_polls (g : Seg) (x : List PollIdx) : (s.setDue g x).polls = s.polls := rfl
@[simp] theorem setDue_sems (g : Seg) (x : List PollIdx) : (s.setDue g x).sems = s.sems := rfl
@[simp] theorem setDue_tenth (g : Seg) (x : List PollIdx) : (s.setDue g x).tenth = s.tenth := rfl
@[simp] theorem setDue_freeCount (g : Seg) (x : List PollIdx) : (s.setDue g x).freeCount = s.freeCount := rfl
@[simp] theorem setDue_pending (g : Seg) (x : List PollIdx) : (s.setDue g x).pending = s.pending := rfl
@[simp] theorem setDue_port (g : Seg) (x : List PollIdx) (k : Port) : (s.setDue g x).port k = s.port k := rfl
@[simp] theorem setDue_engine (g : Seg) (x : List PollIdx) (k : Seg) : (s.setDue g x).engine k = s.engine k := rfl
@[simp] theorem setDue_arbiter (g : Seg) (x : List PollIdx) (k : Seg) : (s.setDue g x).arbiter k = s.arbiter k := rfl
@[simp] theorem setDue_route (g : Seg) (x : List PollIdx) (k : RouteIdx) : (s.setDue g x).route k = s.route k := rfl
@[simp] theorem setDue_hold (g : Seg) (x : List PollIdx) (k : HoldIdx) : (s.setDue g x).hold k = s.hold k := rfl
@[simp] theorem setDue_poll (g : Seg) (x : List PollIdx) (k : PollIdx) : (s.setDue g x).poll k = s.poll k := rfl
@[simp] theorem setDue_sem (g : Seg) (x : List PollIdx) (k : SemIdx) : (s.setDue g x).sem k = s.sem k := rfl

theorem setDue_dueOf (g g' : Seg) (x : List PollIdx) : (s.setDue g x).dueOf g' = if g = g' then x else s.dueOf g' := by
  simp [setDue, dueOf, Vector.getElem_set, Fin.ext_iff]

@[simp] theorem setDue_dueOf_self (g : Seg) (x : List PollIdx) : (s.setDue g x).dueOf g = x := by
  simp [setDue_dueOf]

theorem setDue_dueOf_ne {g g' : Seg} (h : g ≠ g') (x : List PollIdx) : (s.setDue g x).dueOf g' = s.dueOf g' := by
  simp [setDue_dueOf, h]

theorem setDue_setDue (g : Seg) (x y : List PollIdx) : (s.setDue g x).setDue g y = s.setDue g y := by
  simp [setDue]

/-! ### modifyPort -/

@[simp] theorem modifyPort_held (p : Port) (f : PortState → PortState) : (s.modifyPort p f).held = s.held := rfl
@[simp] theorem modifyPort_routes (p : Port) (f : PortState → PortState) : (s.modifyPort p f).routes = s.routes := rfl
@[simp] theorem modifyPort_holds (p : Port) (f : PortState → PortState) : (s.modifyPort p f).holds = s.holds := rfl
@[simp] theorem modifyPort_arbiters (p : Port) (f : PortState → PortState) : (s.modifyPort p f).arbiters = s.arbiters := rfl
@[simp] theorem modifyPort_engines (p : Port) (f : PortState → PortState) : (s.modifyPort p f).engines = s.engines := rfl
@[simp] theorem modifyPort_due (p : Port) (f : PortState → PortState) : (s.modifyPort p f).due = s.due := rfl
@[simp] theorem modifyPort_polls (p : Port) (f : PortState → PortState) : (s.modifyPort p f).polls = s.polls := rfl
@[simp] theorem modifyPort_sems (p : Port) (f : PortState → PortState) : (s.modifyPort p f).sems = s.sems := rfl
@[simp] theorem modifyPort_tenth (p : Port) (f : PortState → PortState) : (s.modifyPort p f).tenth = s.tenth := rfl
@[simp] theorem modifyPort_freeCount (p : Port) (f : PortState → PortState) : (s.modifyPort p f).freeCount = s.freeCount := rfl
@[simp] theorem modifyPort_pending (p : Port) (f : PortState → PortState) : (s.modifyPort p f).pending = s.pending := rfl
@[simp] theorem modifyPort_engine (p : Port) (f : PortState → PortState) (k : Seg) : (s.modifyPort p f).engine k = s.engine k := rfl
@[simp] theorem modifyPort_arbiter (p : Port) (f : PortState → PortState) (k : Seg) : (s.modifyPort p f).arbiter k = s.arbiter k := rfl
@[simp] theorem modifyPort_route (p : Port) (f : PortState → PortState) (k : RouteIdx) : (s.modifyPort p f).route k = s.route k := rfl
@[simp] theorem modifyPort_hold (p : Port) (f : PortState → PortState) (k : HoldIdx) : (s.modifyPort p f).hold k = s.hold k := rfl
@[simp] theorem modifyPort_poll (p : Port) (f : PortState → PortState) (k : PollIdx) : (s.modifyPort p f).poll k = s.poll k := rfl
@[simp] theorem modifyPort_sem (p : Port) (f : PortState → PortState) (k : SemIdx) : (s.modifyPort p f).sem k = s.sem k := rfl
@[simp] theorem modifyPort_dueOf (p : Port) (f : PortState → PortState) (k : Seg) : (s.modifyPort p f).dueOf k = s.dueOf k := rfl

theorem modifyPort_port (p q : Port) (f : PortState → PortState) :
    (s.modifyPort p f).port q = if p = q then f (s.port q) else s.port q := by
  rw [modifyPort, setPort_port]
  split
  · next h => rw [h]
  · rfl

@[simp] theorem modifyPort_port_self (p : Port) (f : PortState → PortState) : (s.modifyPort p f).port p = f (s.port p) := by
  simp [modifyPort_port]

theorem modifyPort_port_ne {p q : Port} (h : p ≠ q) (f : PortState → PortState) :
    (s.modifyPort p f).port q = s.port q := by
  simp [modifyPort_port, h]

theorem modifyPort_modifyPort (p : Port) (f h : PortState → PortState) :
    (s.modifyPort p f).modifyPort p h = s.modifyPort p (fun ps => h (f ps)) := by
  simp [modifyPort, setPort_setPort]

/-! ### mapPorts -/

@[simp] theorem mapPorts_held (f : Port → PortState → PortState) : (s.mapPorts f).held = s.held := rfl
@[simp] theorem mapPorts_routes (f : Port → PortState → PortState) : (s.mapPorts f).routes = s.routes := rfl
@[simp] theorem mapPorts_holds (f : Port → PortState → PortState) : (s.mapPorts f).holds = s.holds := rfl
@[simp] theorem mapPorts_arbiters (f : Port → PortState → PortState) : (s.mapPorts f).arbiters = s.arbiters := rfl
@[simp] theorem mapPorts_engines (f : Port → PortState → PortState) : (s.mapPorts f).engines = s.engines := rfl
@[simp] theorem mapPorts_due (f : Port → PortState → PortState) : (s.mapPorts f).due = s.due := rfl
@[simp] theorem mapPorts_polls (f : Port → PortState → PortState) : (s.mapPorts f).polls = s.polls := rfl
@[simp] theorem mapPorts_sems (f : Port → PortState → PortState) : (s.mapPorts f).sems = s.sems := rfl
@[simp] theorem mapPorts_tenth (f : Port → PortState → PortState) : (s.mapPorts f).tenth = s.tenth := rfl
@[simp] theorem mapPorts_freeCount (f : Port → PortState → PortState) : (s.mapPorts f).freeCount = s.freeCount := rfl
@[simp] theorem mapPorts_pending (f : Port → PortState → PortState) : (s.mapPorts f).pending = s.pending := rfl
@[simp] theorem mapPorts_engine (f : Port → PortState → PortState) (k : Seg) : (s.mapPorts f).engine k = s.engine k := rfl
@[simp] theorem mapPorts_arbiter (f : Port → PortState → PortState) (k : Seg) : (s.mapPorts f).arbiter k = s.arbiter k := rfl
@[simp] theorem mapPorts_route (f : Port → PortState → PortState) (k : RouteIdx) : (s.mapPorts f).route k = s.route k := rfl
@[simp] theorem mapPorts_hold (f : Port → PortState → PortState) (k : HoldIdx) : (s.mapPorts f).hold k = s.hold k := rfl
@[simp] theorem mapPorts_poll (f : Port → PortState → PortState) (k : PollIdx) : (s.mapPorts f).poll k = s.poll k := rfl
@[simp] theorem mapPorts_sem (f : Port → PortState → PortState) (k : SemIdx) : (s.mapPorts f).sem k = s.sem k := rfl
@[simp] theorem mapPorts_dueOf (f : Port → PortState → PortState) (k : Seg) : (s.mapPorts f).dueOf k = s.dueOf k := rfl

@[simp] theorem mapPorts_port (f : Port → PortState → PortState) (p : Port) : (s.mapPorts f).port p = f p (s.port p) := by
  simp [mapPorts, port]

/-! ### mapHolds -/

@[simp] theorem mapHolds_held (f : Option HoldEntry → Option HoldEntry) : (s.mapHolds f).held = s.held := rfl
@[simp] theorem mapHolds_ports (f : Option HoldEntry → Option HoldEntry) : (s.mapHolds f).ports = s.ports := rfl
@[simp] theorem mapHolds_routes (f : Option HoldEntry → Option HoldEntry) : (s.mapHolds f).routes = s.routes := rfl
@[simp] theorem mapHolds_arbiters (f : Option HoldEntry → Option HoldEntry) : (s.mapHolds f).arbiters = s.arbiters := rfl
@[simp] theorem mapHolds_engines (f : Option HoldEntry → Option HoldEntry) : (s.mapHolds f).engines = s.engines := rfl
@[simp] theorem mapHolds_due (f : Option HoldEntry → Option HoldEntry) : (s.mapHolds f).due = s.due := rfl
@[simp] theorem mapHolds_polls (f : Option HoldEntry → Option HoldEntry) : (s.mapHolds f).polls = s.polls := rfl
@[simp] theorem mapHolds_sems (f : Option HoldEntry → Option HoldEntry) : (s.mapHolds f).sems = s.sems := rfl
@[simp] theorem mapHolds_tenth (f : Option HoldEntry → Option HoldEntry) : (s.mapHolds f).tenth = s.tenth := rfl
@[simp] theorem mapHolds_freeCount (f : Option HoldEntry → Option HoldEntry) : (s.mapHolds f).freeCount = s.freeCount := rfl
@[simp] theorem mapHolds_pending (f : Option HoldEntry → Option HoldEntry) : (s.mapHolds f).pending = s.pending := rfl
@[simp] theorem mapHolds_port (f : Option HoldEntry → Option HoldEntry) (k : Port) : (s.mapHolds f).port k = s.port k := rfl
@[simp] theorem mapHolds_engine (f : Option HoldEntry → Option HoldEntry) (k : Seg) : (s.mapHolds f).engine k = s.engine k := rfl
@[simp] theorem mapHolds_arbiter (f : Option HoldEntry → Option HoldEntry) (k : Seg) : (s.mapHolds f).arbiter k = s.arbiter k := rfl
@[simp] theorem mapHolds_route (f : Option HoldEntry → Option HoldEntry) (k : RouteIdx) : (s.mapHolds f).route k = s.route k := rfl
@[simp] theorem mapHolds_poll (f : Option HoldEntry → Option HoldEntry) (k : PollIdx) : (s.mapHolds f).poll k = s.poll k := rfl
@[simp] theorem mapHolds_sem (f : Option HoldEntry → Option HoldEntry) (k : SemIdx) : (s.mapHolds f).sem k = s.sem k := rfl
@[simp] theorem mapHolds_dueOf (f : Option HoldEntry → Option HoldEntry) (k : Seg) : (s.mapHolds f).dueOf k = s.dueOf k := rfl

@[simp] theorem mapHolds_hold (f : Option HoldEntry → Option HoldEntry) (i : HoldIdx) : (s.mapHolds f).hold i = f (s.hold i) := by
  simp [mapHolds, hold]

/-! ### draw -/

@[simp] theorem draw_held : s.draw.held = s.held := rfl
@[simp] theorem draw_ports : s.draw.ports = s.ports := rfl
@[simp] theorem draw_routes : s.draw.routes = s.routes := rfl
@[simp] theorem draw_holds : s.draw.holds = s.holds := rfl
@[simp] theorem draw_arbiters : s.draw.arbiters = s.arbiters := rfl
@[simp] theorem draw_engines : s.draw.engines = s.engines := rfl
@[simp] theorem draw_due : s.draw.due = s.due := rfl
@[simp] theorem draw_polls : s.draw.polls = s.polls := rfl
@[simp] theorem draw_sems : s.draw.sems = s.sems := rfl
@[simp] theorem draw_tenth : s.draw.tenth = s.tenth := rfl
@[simp] theorem draw_pending : s.draw.pending = s.pending := rfl
@[simp] theorem draw_freeCount : s.draw.freeCount = s.freeCount + 1 := rfl
@[simp] theorem draw_port (p : Port) : s.draw.port p = s.port p := rfl
@[simp] theorem draw_engine (g : Seg) : s.draw.engine g = s.engine g := rfl
@[simp] theorem draw_arbiter (g : Seg) : s.draw.arbiter g = s.arbiter g := rfl
@[simp] theorem draw_route (i : RouteIdx) : s.draw.route i = s.route i := rfl
@[simp] theorem draw_hold (i : HoldIdx) : s.draw.hold i = s.hold i := rfl
@[simp] theorem draw_poll (n : PollIdx) : s.draw.poll n = s.poll n := rfl
@[simp] theorem draw_sem (n : SemIdx) : s.draw.sem n = s.sem n := rfl
@[simp] theorem draw_dueOf (g : Seg) : s.draw.dueOf g = s.dueOf g := rfl

/-! ### mapEngines -/

@[simp] theorem mapEngines_held (f : Seg → Engine → Engine) : (s.mapEngines f).held = s.held := rfl
@[simp] theorem mapEngines_ports (f : Seg → Engine → Engine) : (s.mapEngines f).ports = s.ports := rfl
@[simp] theorem mapEngines_routes (f : Seg → Engine → Engine) : (s.mapEngines f).routes = s.routes := rfl
@[simp] theorem mapEngines_holds (f : Seg → Engine → Engine) : (s.mapEngines f).holds = s.holds := rfl
@[simp] theorem mapEngines_arbiters (f : Seg → Engine → Engine) : (s.mapEngines f).arbiters = s.arbiters := rfl
@[simp] theorem mapEngines_due (f : Seg → Engine → Engine) : (s.mapEngines f).due = s.due := rfl
@[simp] theorem mapEngines_polls (f : Seg → Engine → Engine) : (s.mapEngines f).polls = s.polls := rfl
@[simp] theorem mapEngines_sems (f : Seg → Engine → Engine) : (s.mapEngines f).sems = s.sems := rfl
@[simp] theorem mapEngines_tenth (f : Seg → Engine → Engine) : (s.mapEngines f).tenth = s.tenth := rfl
@[simp] theorem mapEngines_freeCount (f : Seg → Engine → Engine) : (s.mapEngines f).freeCount = s.freeCount := rfl
@[simp] theorem mapEngines_pending (f : Seg → Engine → Engine) : (s.mapEngines f).pending = s.pending := rfl
@[simp] theorem mapEngines_port (f : Seg → Engine → Engine) (k : Port) : (s.mapEngines f).port k = s.port k := rfl
@[simp] theorem mapEngines_arbiter (f : Seg → Engine → Engine) (k : Seg) : (s.mapEngines f).arbiter k = s.arbiter k := rfl
@[simp] theorem mapEngines_route (f : Seg → Engine → Engine) (k : RouteIdx) : (s.mapEngines f).route k = s.route k := rfl
@[simp] theorem mapEngines_hold (f : Seg → Engine → Engine) (k : HoldIdx) : (s.mapEngines f).hold k = s.hold k := rfl
@[simp] theorem mapEngines_poll (f : Seg → Engine → Engine) (k : PollIdx) : (s.mapEngines f).poll k = s.poll k := rfl
@[simp] theorem mapEngines_sem (f : Seg → Engine → Engine) (k : SemIdx) : (s.mapEngines f).sem k = s.sem k := rfl
@[simp] theorem mapEngines_dueOf (f : Seg → Engine → Engine) (k : Seg) : (s.mapEngines f).dueOf k = s.dueOf k := rfl

@[simp] theorem mapEngines_engine (f : Seg → Engine → Engine) (g : Seg) : (s.mapEngines f).engine g = f g (s.engine g) := by
  simp [mapEngines, engine]

/-! ### mapArbiters -/

@[simp] theorem mapArbiters_held (f : Arbiter → Arbiter) : (s.mapArbiters f).held = s.held := rfl
@[simp] theorem mapArbiters_ports (f : Arbiter → Arbiter) : (s.mapArbiters f).ports = s.ports := rfl
@[simp] theorem mapArbiters_routes (f : Arbiter → Arbiter) : (s.mapArbiters f).routes = s.routes := rfl
@[simp] theorem mapArbiters_holds (f : Arbiter → Arbiter) : (s.mapArbiters f).holds = s.holds := rfl
@[simp] theorem mapArbiters_engines (f : Arbiter → Arbiter) : (s.mapArbiters f).engines = s.engines := rfl
@[simp] theorem mapArbiters_due (f : Arbiter → Arbiter) : (s.mapArbiters f).due = s.due := rfl
@[simp] theorem mapArbiters_polls (f : Arbiter → Arbiter) : (s.mapArbiters f).polls = s.polls := rfl
@[simp] theorem mapArbiters_sems (f : Arbiter → Arbiter) : (s.mapArbiters f).sems = s.sems := rfl
@[simp] theorem mapArbiters_tenth (f : Arbiter → Arbiter) : (s.mapArbiters f).tenth = s.tenth := rfl
@[simp] theorem mapArbiters_freeCount (f : Arbiter → Arbiter) : (s.mapArbiters f).freeCount = s.freeCount := rfl
@[simp] theorem mapArbiters_pending (f : Arbiter → Arbiter) : (s.mapArbiters f).pending = s.pending := rfl
@[simp] theorem mapArbiters_port (f : Arbiter → Arbiter) (k : Port) : (s.mapArbiters f).port k = s.port k := rfl
@[simp] theorem mapArbiters_engine (f : Arbiter → Arbiter) (k : Seg) : (s.mapArbiters f).engine k = s.engine k := rfl
@[simp] theorem mapArbiters_route (f : Arbiter → Arbiter) (k : RouteIdx) : (s.mapArbiters f).route k = s.route k := rfl
@[simp] theorem mapArbiters_hold (f : Arbiter → Arbiter) (k : HoldIdx) : (s.mapArbiters f).hold k = s.hold k := rfl
@[simp] theorem mapArbiters_poll (f : Arbiter → Arbiter) (k : PollIdx) : (s.mapArbiters f).poll k = s.poll k := rfl
@[simp] theorem mapArbiters_sem (f : Arbiter → Arbiter) (k : SemIdx) : (s.mapArbiters f).sem k = s.sem k := rfl
@[simp] theorem mapArbiters_dueOf (f : Arbiter → Arbiter) (k : Seg) : (s.mapArbiters f).dueOf k = s.dueOf k := rfl

@[simp] theorem mapArbiters_arbiter (f : Arbiter → Arbiter) (g : Seg) : (s.mapArbiters f).arbiter g = f (s.arbiter g) := by
  simp [mapArbiters, arbiter]

/-! ### mapPolls -/

@[simp] theorem mapPolls_held (f : PollEntry → PollEntry) : (s.mapPolls f).held = s.held := rfl
@[simp] theorem mapPolls_ports (f : PollEntry → PollEntry) : (s.mapPolls f).ports = s.ports := rfl
@[simp] theorem mapPolls_routes (f : PollEntry → PollEntry) : (s.mapPolls f).routes = s.routes := rfl
@[simp] theorem mapPolls_holds (f : PollEntry → PollEntry) : (s.mapPolls f).holds = s.holds := rfl
@[simp] theorem mapPolls_arbiters (f : PollEntry → PollEntry) : (s.mapPolls f).arbiters = s.arbiters := rfl
@[simp] theorem mapPolls_engines (f : PollEntry → PollEntry) : (s.mapPolls f).engines = s.engines := rfl
@[simp] theorem mapPolls_due (f : PollEntry → PollEntry) : (s.mapPolls f).due = s.due := rfl
@[simp] theorem mapPolls_sems (f : PollEntry → PollEntry) : (s.mapPolls f).sems = s.sems := rfl
@[simp] theorem mapPolls_tenth (f : PollEntry → PollEntry) : (s.mapPolls f).tenth = s.tenth := rfl
@[simp] theorem mapPolls_freeCount (f : PollEntry → PollEntry) : (s.mapPolls f).freeCount = s.freeCount := rfl
@[simp] theorem mapPolls_pending (f : PollEntry → PollEntry) : (s.mapPolls f).pending = s.pending := rfl
@[simp] theorem mapPolls_port (f : PollEntry → PollEntry) (k : Port) : (s.mapPolls f).port k = s.port k := rfl
@[simp] theorem mapPolls_engine (f : PollEntry → PollEntry) (k : Seg) : (s.mapPolls f).engine k = s.engine k := rfl
@[simp] theorem mapPolls_arbiter (f : PollEntry → PollEntry) (k : Seg) : (s.mapPolls f).arbiter k = s.arbiter k := rfl
@[simp] theorem mapPolls_route (f : PollEntry → PollEntry) (k : RouteIdx) : (s.mapPolls f).route k = s.route k := rfl
@[simp] theorem mapPolls_hold (f : PollEntry → PollEntry) (k : HoldIdx) : (s.mapPolls f).hold k = s.hold k := rfl
@[simp] theorem mapPolls_sem (f : PollEntry → PollEntry) (k : SemIdx) : (s.mapPolls f).sem k = s.sem k := rfl
@[simp] theorem mapPolls_dueOf (f : PollEntry → PollEntry) (k : Seg) : (s.mapPolls f).dueOf k = s.dueOf k := rfl

@[simp] theorem mapPolls_poll (f : PollEntry → PollEntry) (n : PollIdx) : (s.mapPolls f).poll n = f (s.poll n) := by
  simp [mapPolls, poll]

/-! ### mapDue -/

@[simp] theorem mapDue_held (f : List PollIdx → List PollIdx) : (s.mapDue f).held = s.held := rfl
@[simp] theorem mapDue_ports (f : List PollIdx → List PollIdx) : (s.mapDue f).ports = s.ports := rfl
@[simp] theorem mapDue_routes (f : List PollIdx → List PollIdx) : (s.mapDue f).routes = s.routes := rfl
@[simp] theorem mapDue_holds (f : List PollIdx → List PollIdx) : (s.mapDue f).holds = s.holds := rfl
@[simp] theorem mapDue_arbiters (f : List PollIdx → List PollIdx) : (s.mapDue f).arbiters = s.arbiters := rfl
@[simp] theorem mapDue_engines (f : List PollIdx → List PollIdx) : (s.mapDue f).engines = s.engines := rfl
@[simp] theorem mapDue_polls (f : List PollIdx → List PollIdx) : (s.mapDue f).polls = s.polls := rfl
@[simp] theorem mapDue_sems (f : List PollIdx → List PollIdx) : (s.mapDue f).sems = s.sems := rfl
@[simp] theorem mapDue_tenth (f : List PollIdx → List PollIdx) : (s.mapDue f).tenth = s.tenth := rfl
@[simp] theorem mapDue_freeCount (f : List PollIdx → List PollIdx) : (s.mapDue f).freeCount = s.freeCount := rfl
@[simp] theorem mapDue_pending (f : List PollIdx → List PollIdx) : (s.mapDue f).pending = s.pending := rfl
@[simp] theorem mapDue_port (f : List PollIdx → List PollIdx) (k : Port) : (s.mapDue f).port k = s.port k := rfl
@[simp] theorem mapDue_engine (f : List PollIdx → List PollIdx) (k : Seg) : (s.mapDue f).engine k = s.engine k := rfl
@[simp] theorem mapDue_arbiter (f : List PollIdx → List PollIdx) (k : Seg) : (s.mapDue f).arbiter k = s.arbiter k := rfl
@[simp] theorem mapDue_route (f : List PollIdx → List PollIdx) (k : RouteIdx) : (s.mapDue f).route k = s.route k := rfl
@[simp] theorem mapDue_hold (f : List PollIdx → List PollIdx) (k : HoldIdx) : (s.mapDue f).hold k = s.hold k := rfl
@[simp] theorem mapDue_poll (f : List PollIdx → List PollIdx) (k : PollIdx) : (s.mapDue f).poll k = s.poll k := rfl
@[simp] theorem mapDue_sem (f : List PollIdx → List PollIdx) (k : SemIdx) : (s.mapDue f).sem k = s.sem k := rfl

@[simp] theorem mapDue_dueOf (f : List PollIdx → List PollIdx) (g : Seg) : (s.mapDue f).dueOf g = f (s.dueOf g) := by
  simp [mapDue, dueOf]

/-! ### Equality of states -/

/-- States that agree on every entry of every part are equal. -/
theorem ext_parts {s t : State} (held : t.held = s.held) (port : ∀ p, t.port p = s.port p)
    (route : ∀ i, t.route i = s.route i) (hold : ∀ i, t.hold i = s.hold i) (arbiter : ∀ g, t.arbiter g = s.arbiter g)
    (engine : ∀ g, t.engine g = s.engine g) (dueOf : ∀ g, t.dueOf g = s.dueOf g) (poll : ∀ n, t.poll n = s.poll n)
    (sem : ∀ n, t.sem n = s.sem n) (tenth : t.tenth = s.tenth) (freeCount : t.freeCount = s.freeCount)
    (pending : t.pending = s.pending) : t = s := by
  cases s; cases t
  simp only [State.mk.injEq]
  refine ⟨held, ?_, ?_, ?_, ?_, ?_, ?_, ?_, ?_, tenth, freeCount, pending⟩
  · exact Vector.ext fun i h => port ⟨i, h⟩
  · exact Vector.ext fun i h => route ⟨i, h⟩
  · exact Vector.ext fun i h => hold ⟨i, h⟩
  · exact Vector.ext fun i h => arbiter ⟨i, h⟩
  · exact Vector.ext fun i h => engine ⟨i, h⟩
  · exact Vector.ext fun i h => dueOf ⟨i, h⟩
  · exact Vector.ext fun i h => poll ⟨i, h⟩
  · exact Vector.ext fun i h => sem ⟨i, h⟩

end Sys2Proof.Machine.State
end

