-- ==== Sys2Proof/Laws/Port.lean ====
section
/-! SUPPORT. What each operation on one port leaves, and what it does on a port that is not IN_RESET. -/

namespace Sys2Proof.Machine

set_option Elab.async false

namespace PortState

variable (ps : PortState)

/-! ### noteFrame -/

@[simp] theorem noteFrame_role (f : Snapshot → Snapshot) : (ps.noteFrame f).role = ps.role := rfl
@[simp] theorem noteFrame_inReset (f : Snapshot → Snapshot) : (ps.noteFrame f).inReset = ps.inReset := rfl
@[simp] theorem noteFrame_framingFlag (f : Snapshot → Snapshot) : (ps.noteFrame f).framingFlag = ps.framingFlag := rfl
@[simp] theorem noteFrame_framingCount (f : Snapshot → Snapshot) : (ps.noteFrame f).framingCount = ps.framingCount := rfl
@[simp] theorem noteFrame_mask (f : Snapshot → Snapshot) : (ps.noteFrame f).mask = ps.mask := rfl
@[simp] theorem noteFrame_reqs (f : Snapshot → Snapshot) : (ps.noteFrame f).reqs = ps.reqs := rfl
@[simp] theorem noteFrame_results (f : Snapshot → Snapshot) : (ps.noteFrame f).results = ps.results := rfl
@[simp] theorem noteFrame_postedFault (f : Snapshot → Snapshot) : (ps.noteFrame f).postedFault = ps.postedFault := rfl
@[simp] theorem noteFrame_holdEnds (f : Snapshot → Snapshot) : (ps.noteFrame f).holdEnds = ps.holdEnds := rfl
@[simp] theorem noteFrame_lostEnds (f : Snapshot → Snapshot) : (ps.noteFrame f).lostEnds = ps.lostEnds := rfl
@[simp] theorem noteFrame_notices (f : Snapshot → Snapshot) : (ps.noteFrame f).notices = ps.notices := rfl

/-! ### addNotices -/

@[simp] theorem addNotices_role (g : NoticeSets) : (ps.addNotices g).role = ps.role := by
  unfold addNotices; split <;> rfl
@[simp] theorem addNotices_inReset (g : NoticeSets) : (ps.addNotices g).inReset = ps.inReset := by
  unfold addNotices; split <;> rfl
@[simp] theorem addNotices_framingFlag (g : NoticeSets) : (ps.addNotices g).framingFlag = ps.framingFlag := by
  unfold addNotices; split <;> rfl
@[simp] theorem addNotices_framingCount (g : NoticeSets) : (ps.addNotices g).framingCount = ps.framingCount := by
  unfold addNotices; split <;> rfl
@[simp] theorem addNotices_mask (g : NoticeSets) : (ps.addNotices g).mask = ps.mask := by
  unfold addNotices; split <;> rfl
@[simp] theorem addNotices_reqs (g : NoticeSets) : (ps.addNotices g).reqs = ps.reqs := by
  unfold addNotices; split <;> rfl
@[simp] theorem addNotices_results (g : NoticeSets) : (ps.addNotices g).results = ps.results := by
  unfold addNotices; split <;> rfl
@[simp] theorem addNotices_postedFault (g : NoticeSets) : (ps.addNotices g).postedFault = ps.postedFault := by
  unfold addNotices; split <;> rfl
@[simp] theorem addNotices_holdEnds (g : NoticeSets) : (ps.addNotices g).holdEnds = ps.holdEnds := by
  unfold addNotices; split <;> rfl
@[simp] theorem addNotices_lostEnds (g : NoticeSets) : (ps.addNotices g).lostEnds = ps.lostEnds := by
  unfold addNotices; split <;> rfl

/-! ### pushResult -/

@[simp] theorem pushResult_role (r : Result) : (ps.pushResult r).role = ps.role := by
  unfold pushResult; split <;> rfl
@[simp] theorem pushResult_inReset (r : Result) : (ps.pushResult r).inReset = ps.inReset := by
  unfold pushResult; split <;> rfl
@[simp] theorem pushResult_frame (r : Result) : (ps.pushResult r).frame = ps.frame := by
  unfold pushResult; split <;> rfl
@[simp] theorem pushResult_framingFlag (r : Result) : (ps.pushResult r).framingFlag = ps.framingFlag := by
  unfold pushResult; split <;> rfl
@[simp] theorem pushResult_framingCount (r : Result) : (ps.pushResult r).framingCount = ps.framingCount := by
  unfold pushResult; split <;> rfl
@[simp] theorem pushResult_mask (r : Result) : (ps.pushResult r).mask = ps.mask := by
  unfold pushResult; split <;> rfl
@[simp] theorem pushResult_reqs (r : Result) : (ps.pushResult r).reqs = ps.reqs := by
  unfold pushResult; split <;> rfl
@[simp] theorem pushResult_postedFault (r : Result) : (ps.pushResult r).postedFault = ps.postedFault := by
  unfold pushResult; split <;> rfl
@[simp] theorem pushResult_holdEnds (r : Result) : (ps.pushResult r).holdEnds = ps.holdEnds := by
  unfold pushResult; split <;> rfl
@[simp] theorem pushResult_lostEnds (r : Result) : (ps.pushResult r).lostEnds = ps.lostEnds := by
  unfold pushResult; split <;> rfl
@[simp] theorem pushResult_notices (r : Result) : (ps.pushResult r).notices = ps.notices := by
  unfold pushResult; split <;> rfl

/-! ### enterFault -/

@[simp] theorem enterFault_role (r : Request) (st : Status) (ack : Nat) : (ps.enterFault r st ack).role = ps.role := by
  unfold enterFault; split <;> rfl
@[simp] theorem enterFault_inReset (r : Request) (st : Status) (ack : Nat) : (ps.enterFault r st ack).inReset = ps.inReset := by
  unfold enterFault; split <;> rfl
@[simp] theorem enterFault_framingFlag (r : Request) (st : Status) (ack : Nat) : (ps.enterFault r st ack).framingFlag = ps.framingFlag := by
  unfold enterFault; split <;> rfl
@[simp] theorem enterFault_framingCount (r : Request) (st : Status) (ack : Nat) : (ps.enterFault r st ack).framingCount = ps.framingCount := by
  unfold enterFault; split <;> rfl
@[simp] theorem enterFault_mask (r : Request) (st : Status) (ack : Nat) : (ps.enterFault r st ack).mask = ps.mask := by
  unfold enterFault; split <;> rfl
@[simp] theorem enterFault_reqs (r : Request) (st : Status) (ack : Nat) : (ps.enterFault r st ack).reqs = ps.reqs := by
  unfold enterFault; split <;> rfl
@[simp] theorem enterFault_results (r : Request) (st : Status) (ack : Nat) : (ps.enterFault r st ack).results = ps.results := by
  unfold enterFault; split <;> rfl
@[simp] theorem enterFault_holdEnds (r : Request) (st : Status) (ack : Nat) : (ps.enterFault r st ack).holdEnds = ps.holdEnds := by
  unfold enterFault; split <;> rfl
@[simp] theorem enterFault_lostEnds (r : Request) (st : Status) (ack : Nat) : (ps.enterFault r st ack).lostEnds = ps.lostEnds := by
  unfold enterFault; split <;> rfl
@[simp] theorem enterFault_notices (r : Request) (st : Status) (ack : Nat) : (ps.enterFault r st ack).notices = ps.notices := by
  unfold enterFault; split <;> rfl

/-! ### addHoldEnd -/

@[simp] theorem addHoldEnd_role (e : HoldEnd) : (ps.addHoldEnd e).role = ps.role := by
  unfold addHoldEnd; repeat (first | rfl | split)
@[simp] theorem addHoldEnd_inReset (e : HoldEnd) : (ps.addHoldEnd e).inReset = ps.inReset := by
  unfold addHoldEnd; repeat (first | rfl | split)
@[simp] theorem addHoldEnd_framingFlag (e : HoldEnd) : (ps.addHoldEnd e).framingFlag = ps.framingFlag := by
  unfold addHoldEnd; repeat (first | rfl | split)
@[simp] theorem addHoldEnd_framingCount (e : HoldEnd) : (ps.addHoldEnd e).framingCount = ps.framingCount := by
  unfold addHoldEnd; repeat (first | rfl | split)
@[simp] theorem addHoldEnd_mask (e : HoldEnd) : (ps.addHoldEnd e).mask = ps.mask := by
  unfold addHoldEnd; repeat (first | rfl | split)
@[simp] theorem addHoldEnd_reqs (e : HoldEnd) : (ps.addHoldEnd e).reqs = ps.reqs := by
  unfold addHoldEnd; repeat (first | rfl | split)
@[simp] theorem addHoldEnd_results (e : HoldEnd) : (ps.addHoldEnd e).results = ps.results := by
  unfold addHoldEnd; repeat (first | rfl | split)
@[simp] theorem addHoldEnd_postedFault (e : HoldEnd) : (ps.addHoldEnd e).postedFault = ps.postedFault := by
  unfold addHoldEnd; repeat (first | rfl | split)
@[simp] theorem addHoldEnd_notices (e : HoldEnd) : (ps.addHoldEnd e).notices = ps.notices := by
  unfold addHoldEnd; repeat (first | rfl | split)

/-! ### framingError -/

@[simp] theorem framingError_role : (ps.framingError).role = ps.role := rfl
@[simp] theorem framingError_inReset : (ps.framingError).inReset = ps.inReset := rfl
@[simp] theorem framingError_frame : (ps.framingError).frame = ps.frame := rfl
@[simp] theorem framingError_mask : (ps.framingError).mask = ps.mask := rfl
@[simp] theorem framingError_reqs : (ps.framingError).reqs = ps.reqs := rfl
@[simp] theorem framingError_results : (ps.framingError).results = ps.results := rfl
@[simp] theorem framingError_postedFault : (ps.framingError).postedFault = ps.postedFault := rfl
@[simp] theorem framingError_holdEnds : (ps.framingError).holdEnds = ps.holdEnds := rfl
@[simp] theorem framingError_lostEnds : (ps.framingError).lostEnds = ps.lostEnds := rfl
@[simp] theorem framingError_notices : (ps.framingError).notices = ps.notices := rfl

/-! ### deliver -/

@[simp] theorem deliver_role (r : Request) (e : Ending) : (ps.deliver r e).role = ps.role := by
  unfold deliver; repeat (first | rfl | simp | split)
@[simp] theorem deliver_inReset (r : Request) (e : Ending) : (ps.deliver r e).inReset = ps.inReset := by
  unfold deliver; repeat (first | rfl | simp | split)
@[simp] theorem deliver_framingFlag (r : Request) (e : Ending) : (ps.deliver r e).framingFlag = ps.framingFlag := by
  unfold deliver; repeat (first | rfl | simp | split)
@[simp] theorem deliver_framingCount (r : Request) (e : Ending) : (ps.deliver r e).framingCount = ps.framingCount := by
  unfold deliver; repeat (first | rfl | simp | split)
@[simp] theorem deliver_mask (r : Request) (e : Ending) : (ps.deliver r e).mask = ps.mask := by
  unfold deliver; repeat (first | rfl | simp | split)
@[simp] theorem deliver_reqs (r : Request) (e : Ending) : (ps.deliver r e).reqs = ps.reqs := by
  unfold deliver; repeat (first | rfl | simp | split)
@[simp] theorem deliver_holdEnds (r : Request) (e : Ending) : (ps.deliver r e).holdEnds = ps.holdEnds := by
  unfold deliver; repeat (first | rfl | simp | split)
@[simp] theorem deliver_lostEnds (r : Request) (e : Ending) : (ps.deliver r e).lostEnds = ps.lostEnds := by
  unfold deliver; repeat (first | rfl | simp | split)
@[simp] theorem deliver_notices (r : Request) (e : Ending) : (ps.deliver r e).notices = ps.notices := by
  unfold deliver; repeat (first | rfl | simp | split)

/-! ### complete -/

@[simp] theorem complete_role (r : Request) (e : Ending) : (ps.complete r e).role = ps.role := by
  unfold complete; simp
@[simp] theorem complete_inReset (r : Request) (e : Ending) : (ps.complete r e).inReset = ps.inReset := by
  unfold complete; simp
@[simp] theorem complete_framingFlag (r : Request) (e : Ending) : (ps.complete r e).framingFlag = ps.framingFlag := by
  unfold complete; simp
@[simp] theorem complete_framingCount (r : Request) (e : Ending) : (ps.complete r e).framingCount = ps.framingCount := by
  unfold complete; simp
@[simp] theorem complete_mask (r : Request) (e : Ending) : (ps.complete r e).mask = ps.mask := by
  unfold complete; simp
@[simp] theorem complete_holdEnds (r : Request) (e : Ending) : (ps.complete r e).holdEnds = ps.holdEnds := by
  unfold complete; simp
@[simp] theorem complete_lostEnds (r : Request) (e : Ending) : (ps.complete r e).lostEnds = ps.lostEnds := by
  unfold complete; simp
@[simp] theorem complete_notices (r : Request) (e : Ending) : (ps.complete r e).notices = ps.notices := by
  unfold complete; simp

/-! ### setReqState -/

@[simp] theorem setReqState_role (tag : Byte) (st : ReqState) : (ps.setReqState tag st).role = ps.role := rfl
@[simp] theorem setReqState_inReset (tag : Byte) (st : ReqState) : (ps.setReqState tag st).inReset = ps.inReset := rfl
@[simp] theorem setReqState_frame (tag : Byte) (st : ReqState) : (ps.setReqState tag st).frame = ps.frame := rfl
@[simp] theorem setReqState_framingFlag (tag : Byte) (st : ReqState) : (ps.setReqState tag st).framingFlag = ps.framingFlag := rfl
@[simp] theorem setReqState_framingCount (tag : Byte) (st : ReqState) : (ps.setReqState tag st).framingCount = ps.framingCount := rfl
@[simp] theorem setReqState_mask (tag : Byte) (st : ReqState) : (ps.setReqState tag st).mask = ps.mask := rfl
@[simp] theorem setReqState_results (tag : Byte) (st : ReqState) : (ps.setReqState tag st).results = ps.results := rfl
@[simp] theorem setReqState_postedFault (tag : Byte) (st : ReqState) : (ps.setReqState tag st).postedFault = ps.postedFault := rfl
@[simp] theorem setReqState_holdEnds (tag : Byte) (st : ReqState) : (ps.setReqState tag st).holdEnds = ps.holdEnds := rfl
@[simp] theorem setReqState_lostEnds (tag : Byte) (st : ReqState) : (ps.setReqState tag st).lostEnds = ps.lostEnds := rfl
@[simp] theorem setReqState_notices (tag : Byte) (st : ReqState) : (ps.setReqState tag st).notices = ps.notices := rfl

/-! ### What the operations do on a port that is not IN_RESET -/

theorem addNotices_notices (g : NoticeSets) (h : ps.inReset = false) : (ps.addNotices g).notices = ps.notices.union g := by
  simp [addNotices, h]

theorem addNotices_inReset_eq (g : NoticeSets) (h : ps.inReset = true) : ps.addNotices g = ps := by
  simp [addNotices, h]

theorem pushResult_results (r : Result) (h : ps.inReset = false) : (ps.pushResult r).results = ps.results ++ [r] := by
  simp [pushResult, h]

theorem pushResult_inReset_eq (r : Result) (h : ps.inReset = true) : ps.pushResult r = ps := by
  simp [pushResult, h]

@[simp] theorem complete_reqs (r : Request) (e : Ending) :
    (ps.complete r e).reqs = ps.reqs.eraseP (fun x => x.tag == r.tag) := by
  simp [complete]

/-- A non-posted request completes into the result queue (R17, R43). -/
theorem complete_nonposted (r : Request) (e : Ending) (h : ps.inReset = false) (hp : r.posted = false) :
    ps.complete r e =
      { ps with reqs := ps.reqs.eraseP (fun x => x.tag == r.tag), results := ps.results ++ [e.record r] } := by
  simp [complete, deliver, hp, pushResult, h]

/-- A posted request that ends DONE or CANCELLED leaves no record (R17). -/
theorem complete_posted_silent (r : Request) (e : Ending) (hp : r.posted = true)
    (he : e.status = .done ∨ e.status = .cancelled) :
    ps.complete r e = { ps with reqs := ps.reqs.eraseP (fun x => x.tag == r.tag) } := by
  simp [complete, deliver, hp, he]

/-- The results a completion leaves are the old ones, and at most the record of the request. -/
theorem deliver_results (r : Request) (e : Ending) :
    (ps.deliver r e).results = ps.results ∨ (r.posted = false ∧ (ps.deliver r e).results = ps.results ++ [e.record r]) := by
  unfold deliver
  cases hp : r.posted
  · cases hr : ps.inReset <;> simp [pushResult, hr]
  · simp; split <;> simp

theorem complete_results (r : Request) (e : Ending) :
    (ps.complete r e).results = ps.results ∨ (r.posted = false ∧ (ps.complete r e).results = ps.results ++ [e.record r]) :=
  deliver_results { ps with reqs := ps.reqs.eraseP (fun x => x.tag == r.tag) } r e

/-! ### completeAll -/

/-- Folding `deliver` over requests keeps every field that `deliver` keeps. -/
theorem foldl_deliver (st : Status) {α : Type} (field : PortState → α)
    (h : ∀ (ps : PortState) (r : Request), field (ps.deliver r { status := st }) = field ps) (l : List Request) :
    ∀ ps : PortState, field (l.foldl (fun ps r => ps.deliver r { status := st }) ps) = field ps := by
  induction l with
  | nil => intro ps; rfl
  | cons r l ih => intro ps; rw [List.foldl_cons, ih, h]

@[simp] theorem completeAll_role (sel : Request → Bool) (st : Status) : (ps.completeAll sel st).role = ps.role :=
  foldl_deliver st (·.role) (fun _ _ => deliver_role ..) _ _
@[simp] theorem completeAll_inReset (sel : Request → Bool) (st : Status) : (ps.completeAll sel st).inReset = ps.inReset :=
  foldl_deliver st (·.inReset) (fun _ _ => deliver_inReset ..) _ _
@[simp] theorem completeAll_framingFlag (sel : Request → Bool) (st : Status) : (ps.completeAll sel st).framingFlag = ps.framingFlag :=
  foldl_deliver st (·.framingFlag) (fun _ _ => deliver_framingFlag ..) _ _
@[simp] theorem completeAll_framingCount (sel : Request → Bool) (st : Status) : (ps.completeAll sel st).framingCount = ps.framingCount :=
  foldl_deliver st (·.framingCount) (fun _ _ => deliver_framingCount ..) _ _
@[simp] theorem completeAll_mask (sel : Request → Bool) (st : Status) : (ps.completeAll sel st).mask = ps.mask :=
  foldl_deliver st (·.mask) (fun _ _ => deliver_mask ..) _ _
@[simp] theorem completeAll_reqs (sel : Request → Bool) (st : Status) : (ps.completeAll sel st).reqs = ps.reqs.filter (fun r => !sel r) :=
  foldl_deliver st (·.reqs) (fun _ _ => deliver_reqs ..) _ _
@[simp] theorem completeAll_holdEnds (sel : Request → Bool) (st : Status) : (ps.completeAll sel st).holdEnds = ps.holdEnds :=
  foldl_deliver st (·.holdEnds) (fun _ _ => deliver_holdEnds ..) _ _
@[simp] theorem completeAll_lostEnds (sel : Request → Bool) (st : Status) : (ps.completeAll sel st).lostEnds = ps.lostEnds :=
  foldl_deliver st (·.lostEnds) (fun _ _ => deliver_lostEnds ..) _ _
@[simp] theorem completeAll_notices (sel : Request → Bool) (st : Status) : (ps.completeAll sel st).notices = ps.notices :=
  foldl_deliver st (·.notices) (fun _ _ => deliver_notices ..) _ _

/-- The results after folding `deliver`: the records of the non-posted requests, in order. -/
theorem foldl_deliver_results (st : Status) (l : List Request) : ∀ ps : PortState, ps.inReset = false →
    (l.foldl (fun ps r => ps.deliver r { status := st }) ps).results =
      ps.results ++ (l.filter (!·.posted)).map (Ending.record { status := st }) := by
  induction l with
  | nil => intro ps _; simp
  | cons r l ih =>
    intro ps h
    rw [List.foldl_cons, ih _ (by simpa using h)]
    cases hp : r.posted
    · simp [deliver, hp, pushResult, h]
    · simp [deliver, hp]
      split <;> simp

/-- Completions of one event join the result queue in admission order (R43). -/
theorem completeAll_results (sel : Request → Bool) (st : Status) (h : ps.inReset = false) :
    (ps.completeAll sel st).results =
      ps.results ++ ((ps.reqs.filter sel).filter (!·.posted)).map (Ending.record { status := st }) :=
  foldl_deliver_results st _ _ h

/-- A port that is IN_RESET gains no result. -/
theorem completeAll_results_inReset (sel : Request → Bool) (st : Status) (h : ps.inReset = true) :
    (ps.completeAll sel st).results = ps.results := by
  have key : ∀ (l : List Request) (ps : PortState), ps.inReset = true →
      (l.foldl (fun ps r => ps.deliver r { status := st }) ps).results = ps.results := by
    intro l
    induction l with
    | nil => intro ps _; rfl
    | cons r l ih =>
      intro ps h
      rw [List.foldl_cons, ih _ (by simpa using h)]
      unfold deliver
      split
      · split <;> simp
      · simp [pushResult, h]
  exact key _ _ h

/-! ### grantAll -/

/-- Granting a port's served HOLDs keeps every field that a completion keeps. -/
theorem grantAll_field {α : Type} (field : PortState → α)
    (h : ∀ (ps : PortState) (r : Request) (e : Ending), field (ps.complete r e) = field ps) (served : List Waiter) :
    field (ps.grantAll served) = field ps := by
  have key : ∀ (l : List Request) (ps : PortState), field (l.foldl (fun ps r =>
      match served.find? fun w => w.tag == r.tag with
      | some w => ps.complete r { status := .holdGranted, holdRemaining := some w.limit }
      | none => ps) ps) = field ps := by
    intro l
    induction l with
    | nil => intro ps; rfl
    | cons r l ih =>
      intro ps
      rw [List.foldl_cons, ih]
      split
      · exact h ..
      · rfl
  exact key _ _

@[simp] theorem grantAll_role (served : List Waiter) : (ps.grantAll served).role = ps.role :=
  grantAll_field ps (·.role) complete_role served
@[simp] theorem grantAll_inReset (served : List Waiter) : (ps.grantAll served).inReset = ps.inReset :=
  grantAll_field ps (·.inReset) complete_inReset served
@[simp] theorem grantAll_framingFlag (served : List Waiter) : (ps.grantAll served).framingFlag = ps.framingFlag :=
  grantAll_field ps (·.framingFlag) complete_framingFlag served
@[simp] theorem grantAll_framingCount (served : List Waiter) : (ps.grantAll served).framingCount = ps.framingCount :=
  grantAll_field ps (·.framingCount) complete_framingCount served
@[simp] theorem grantAll_mask (served : List Waiter) : (ps.grantAll served).mask = ps.mask :=
  grantAll_field ps (·.mask) complete_mask served
@[simp] theorem grantAll_holdEnds (served : List Waiter) : (ps.grantAll served).holdEnds = ps.holdEnds :=
  grantAll_field ps (·.holdEnds) complete_holdEnds served
@[simp] theorem grantAll_lostEnds (served : List Waiter) : (ps.grantAll served).lostEnds = ps.lostEnds :=
  grantAll_field ps (·.lostEnds) complete_lostEnds served
@[simp] theorem grantAll_notices (served : List Waiter) : (ps.grantAll served).notices = ps.notices :=
  grantAll_field ps (·.notices) complete_notices served

/-- A port that is served on no entry is left. -/
@[simp] theorem grantAll_nil : ps.grantAll [] = ps := by
  have key : ∀ l : List Request, l.foldl (fun ps _ => ps) ps = ps := by
    intro l
    induction l with
    | nil => rfl
    | cons _ _ ih => exact ih
  exact key _

/-! ### The head of a lane (R38, R39) -/

theorem headFrom_some {g : Seg} {reqs : List Request} : ∀ {older older' : List Request} {r : Request},
    headFrom g older reqs = some (older', r) →
      r.key.seg = g ∧ ∃ before after, reqs = before ++ r :: after ∧ older' = older ++ before ∧
        ∀ x ∈ before, x.key.seg ≠ g := by
  induction reqs with
  | nil => intro older older' r h; simp [headFrom] at h
  | cons x rest ih =>
    intro older older' r h
    unfold headFrom at h
    split at h
    · next hx =>
      simp only [Option.some.injEq, Prod.mk.injEq] at h
      obtain ⟨rfl, rfl⟩ := h
      exact ⟨by simpa using hx, [], rest, by simp, by simp, by simp⟩
    · next hx =>
      obtain ⟨hg, before, after, e1, e2, e3⟩ := ih h
      refine ⟨hg, x :: before, after, by simp [e1], by simp [e2], ?_⟩
      intro y hy
      rcases List.mem_cons.mp hy with rfl | hy
      · simpa using hx
      · exact e3 y hy

/-- A ready head is the first open request of its lane, QUEUED, with the older requests of the port before it. -/
theorem readyHead_some {ps : PortState} {g : Seg} {r : Request} (h : ps.readyHead g = some r) :
    r.state = .queued ∧ r.key.seg = g ∧ ∃ before after, ps.reqs = before ++ r :: after ∧
      fenceBlocked before r = false ∧ ∀ x ∈ before, x.key.seg ≠ g := by
  unfold readyHead at h
  split at h
  · next older x hx =>
    split at h
    · next hc =>
      obtain rfl : x = r := by simpa using h
      obtain ⟨hg, before, after, e1, e2, e3⟩ := headFrom_some hx
      exact ⟨hc.1, hg, before, after, e1, by simpa [e2] using hc.2, e3⟩
    · simp at h
  · simp at h

theorem readyHead_mem {ps : PortState} {g : Seg} {r : Request} (h : ps.readyHead g = some r) : r ∈ ps.reqs := by
  obtain ⟨_, _, before, after, e, _⟩ := readyHead_some h
  simp [e]

end PortState

end Sys2Proof.Machine
end

