-- ==== Sys2Proof/Laws/Ops.lean ====
section
/-! SUPPORT. What each shared operation can change: `Keeps s t l` says that every part outside `l` is as it was, and
`SamePins s t` that no role and no PRSTxN level changed. The provers cite these instead of unfolding an operation. -/

namespace Sys2Proof.Machine.State

set_option Elab.async false

/-- No port's role and no port's reset state changed. -/
structure SamePins (s t : State) : Prop where
  same : ∀ p, (t.port p).role = (s.port p).role ∧ (t.port p).inReset = (s.port p).inReset

variable {s t u : State} {l l' : List Part}

/-! ### Composition -/

theorem Keeps.refl (s : State) (l : List Part) : Keeps s s l := by
  exact ⟨fun x _ => by cases x <;> rfl⟩

theorem Keeps.trans (h : Keeps s t l) (k : Keeps t u l) : Keeps s u l := by
  refine ⟨fun x hx => ?_⟩
  have a := h.unchanged x hx
  have b := k.unchanged x hx
  cases x <;> exact Eq.trans b a

theorem Keeps.mono (h : Keeps s t l) (sub : ∀ x, x ∈ l → x ∈ l' := by decide) : Keeps s t l' :=
  ⟨fun x hx => h.unchanged x (fun m => hx (sub x m))⟩

theorem SamePins.refl (s : State) : SamePins s s := ⟨fun _ => ⟨rfl, rfl⟩⟩

theorem SamePins.trans (h : SamePins s t) (k : SamePins t u) : SamePins s u :=
  ⟨fun p => ⟨(k.same p).1.trans (h.same p).1, (k.same p).2.trans (h.same p).2⟩⟩

/-- Folding an operation keeps what the operation keeps. -/
theorem Keeps.foldl {α : Type} {f : State → α → State} (h : ∀ s a, Keeps s (f s a) l) (xs : List α) :
    ∀ s, Keeps s (xs.foldl f s) l := by
  induction xs with
  | nil => intro s; exact .refl s l
  | cons x xs ih => intro s; exact (h s x).trans (ih _)

theorem SamePins.foldl {α : Type} {f : State → α → State} (h : ∀ s a, SamePins s (f s a)) (xs : List α) :
    ∀ s, SamePins s (xs.foldl f s) := by
  induction xs with
  | nil => intro s; exact .refl s
  | cons x xs ih => intro s; exact (h s x).trans (ih _)

/-! ### Reading one part -/

theorem Keeps.held (h : Keeps s t l) (m : .held ∉ l := by decide) : t.held = s.held := h.unchanged .held m
theorem Keeps.tenth (h : Keeps s t l) (m : .tenth ∉ l := by decide) : t.tenth = s.tenth := h.unchanged .tenth m
theorem Keeps.freeCount (h : Keeps s t l) (m : .freeCount ∉ l := by decide) : t.freeCount = s.freeCount := h.unchanged .freeCount m
theorem Keeps.pending (h : Keeps s t l) (m : .pending ∉ l := by decide) : t.pending = s.pending := h.unchanged .pending m

theorem Keeps.port (h : Keeps s t l) (p : Port) (m : .ports ∉ l := by decide) : t.port p = s.port p := by
  have e : t.ports = s.ports := h.unchanged .ports m
  rw [State.port, State.port, e]

theorem Keeps.route (h : Keeps s t l) (i : RouteIdx) (m : .routes ∉ l := by decide) : t.route i = s.route i := by
  have e : t.routes = s.routes := h.unchanged .routes m
  rw [State.route, State.route, e]

theorem Keeps.hold (h : Keeps s t l) (i : HoldIdx) (m : .holds ∉ l := by decide) : t.hold i = s.hold i := by
  have e : t.holds = s.holds := h.unchanged .holds m
  rw [State.hold, State.hold, e]

theorem Keeps.arbiter (h : Keeps s t l) (g : Seg) (m : .arbiters ∉ l := by decide) : t.arbiter g = s.arbiter g := by
  have e : t.arbiters = s.arbiters := h.unchanged .arbiters m
  rw [State.arbiter, State.arbiter, e]

theorem Keeps.engine (h : Keeps s t l) (g : Seg) (m : .engines ∉ l := by decide) : t.engine g = s.engine g := by
  have e : t.engines = s.engines := h.unchanged .engines m
  rw [State.engine, State.engine, e]

theorem Keeps.dueOf (h : Keeps s t l) (g : Seg) (m : .due ∉ l := by decide) : t.dueOf g = s.dueOf g := by
  have e : t.due = s.due := h.unchanged .due m
  rw [State.dueOf, State.dueOf, e]

theorem Keeps.poll (h : Keeps s t l) (n : PollIdx) (m : .polls ∉ l := by decide) : t.poll n = s.poll n := by
  have e : t.polls = s.polls := h.unchanged .polls m
  rw [State.poll, State.poll, e]

theorem Keeps.sem (h : Keeps s t l) (n : SemIdx) (m : .sems ∉ l := by decide) : t.sem n = s.sem n := by
  have e : t.sems = s.sems := h.unchanged .sems m
  rw [State.sem, State.sem, e]

/-- Where no port changed, no pin changed. -/
theorem Keeps.samePins (h : Keeps s t l) (m : .ports ∉ l := by decide) : SamePins s t := by
  exact ⟨fun p => by rw [h.port p m]; exact ⟨rfl, rfl⟩⟩

/-! ### The updates -/

theorem setPort_keeps (s : State) (p : Port) (x : PortState) : Keeps s (s.setPort p x) [.ports] := by
  exact ⟨fun y hy => by cases y <;> first | rfl | simp at hy⟩

theorem setEngine_keeps (s : State) (g : Seg) (x : Engine) : Keeps s (s.setEngine g x) [.engines] := by
  exact ⟨fun y hy => by cases y <;> first | rfl | simp at hy⟩

theorem setArbiter_keeps (s : State) (g : Seg) (x : Arbiter) : Keeps s (s.setArbiter g x) [.arbiters] := by
  exact ⟨fun y hy => by cases y <;> first | rfl | simp at hy⟩

theorem setRoute_keeps (s : State) (i : RouteIdx) (x : RouteEntry) : Keeps s (s.setRoute i x) [.routes] := by
  exact ⟨fun y hy => by cases y <;> first | rfl | simp at hy⟩

theorem setHold_keeps (s : State) (i : HoldIdx) (x : Option HoldEntry) : Keeps s (s.setHold i x) [.holds] := by
  exact ⟨fun y hy => by cases y <;> first | rfl | simp at hy⟩

theorem setPoll_keeps (s : State) (n : PollIdx) (x : PollEntry) : Keeps s (s.setPoll n x) [.polls] := by
  exact ⟨fun y hy => by cases y <;> first | rfl | simp at hy⟩

theorem setSem_keeps (s : State) (n : SemIdx) (x : Semaphore) : Keeps s (s.setSem n x) [.sems] := by
  exact ⟨fun y hy => by cases y <;> first | rfl | simp at hy⟩

theorem setDue_keeps (s : State) (g : Seg) (x : List PollIdx) : Keeps s (s.setDue g x) [.due] := by
  exact ⟨fun y hy => by cases y <;> first | rfl | simp at hy⟩

theorem modifyPort_keeps (s : State) (p : Port) (f : PortState → PortState) : Keeps s (s.modifyPort p f) [.ports] :=
  setPort_keeps ..

theorem mapPorts_keeps (s : State) (f : Port → PortState → PortState) : Keeps s (s.mapPorts f) [.ports] :=
  ⟨fun y hy => by cases y <;> simp [Agree] at hy ⊢⟩

theorem mapHolds_keeps (s : State) (f : Option HoldEntry → Option HoldEntry) : Keeps s (s.mapHolds f) [.holds] :=
  ⟨fun y hy => by cases y <;> simp [Agree] at hy ⊢⟩

theorem mapEngines_keeps (s : State) (f : Seg → Engine → Engine) : Keeps s (s.mapEngines f) [.engines] :=
  ⟨fun y hy => by cases y <;> simp [Agree] at hy ⊢⟩

theorem draw_keeps (s : State) : Keeps s s.draw [.freeCount] :=
  ⟨fun y hy => by cases y <;> simp [Agree] at hy ⊢⟩

theorem mapArbiters_keeps (s : State) (f : Arbiter → Arbiter) : Keeps s (s.mapArbiters f) [.arbiters] :=
  ⟨fun y hy => by cases y <;> simp [Agree] at hy ⊢⟩

theorem mapPolls_keeps (s : State) (f : PollEntry → PollEntry) : Keeps s (s.mapPolls f) [.polls] :=
  ⟨fun y hy => by cases y <;> simp [Agree] at hy ⊢⟩

theorem mapDue_keeps (s : State) (f : List PollIdx → List PollIdx) : Keeps s (s.mapDue f) [.due] :=
  ⟨fun y hy => by cases y <;> simp [Agree] at hy ⊢⟩

theorem modifyPort_samePins (s : State) (p : Port) (f : PortState → PortState)
    (h : ∀ ps, (f ps).role = ps.role ∧ (f ps).inReset = ps.inReset) : SamePins s (s.modifyPort p f) := by
  refine ⟨fun q => ?_⟩
  rw [modifyPort_port]
  split
  · exact h _
  · exact ⟨rfl, rfl⟩

theorem mapPorts_samePins (s : State) (f : Port → PortState → PortState)
    (h : ∀ p ps, (f p ps).role = ps.role ∧ (f p ps).inReset = ps.inReset) : SamePins s (s.mapPorts f) := by
  refine ⟨fun q => ?_⟩
  rw [mapPorts_port]
  exact h _ _

/-- A port runs after an operation that keeps RESETN and the pins exactly if it ran before. -/
theorem running_eq (h : t.held = s.held) (k : SamePins s t) (p : Port) : t.running p = s.running p := by
  simp [running, h, (k.same p).2]

/-! ### Requests and holds -/

theorem completeReq_keeps (s : State) (p : Port) (r : Request) (e : Ending) : Keeps s (s.completeReq p r e) [.ports] :=
  modifyPort_keeps ..

theorem completeReq_samePins (s : State) (p : Port) (r : Request) (e : Ending) : SamePins s (s.completeReq p r e) :=
  modifyPort_samePins _ _ _ (by simp)

@[simp] theorem completeReq_port_self (s : State) (p : Port) (r : Request) (e : Ending) :
    (s.completeReq p r e).port p = (s.port p).complete r e := by
  simp [completeReq]

theorem completeReq_port_ne (s : State) {p q : Port} (h : p ≠ q) (r : Request) (e : Ending) :
    (s.completeReq p r e).port q = s.port q := modifyPort_port_ne _ h _

theorem dropWaiters_keeps (s : State) (p : Port) (sel : Byte → Bool) : Keeps s (s.dropWaiters p sel) [.holds] :=
  mapHolds_keeps ..

theorem handOver_keeps (s : State) (i : HoldIdx) : Keeps s (s.handOver i) [.holds, .ports] := by
  unfold handOver
  split
  · exact .refl ..
  · split
    · exact (setHold_keeps ..).mono
    · dsimp only
      split
      · exact ((setHold_keeps ..).mono).trans ((completeReq_keeps ..).mono)
      · exact (setHold_keeps ..).mono

theorem handOver_samePins (s : State) (i : HoldIdx) : SamePins s (s.handOver i) := by
  unfold handOver
  split
  · exact .refl ..
  · split
    · exact (setHold_keeps ..).samePins
    · dsimp only
      split
      · exact ((setHold_keeps ..).samePins).trans (completeReq_samePins ..)
      · exact (setHold_keeps ..).samePins

theorem expire_keeps (s : State) (i : HoldIdx) : Keeps s (s.expire i) [.holds, .ports] := by
  unfold expire
  split
  · exact .refl ..
  · exact ((modifyPort_keeps ..).mono).trans (handOver_keeps ..)

theorem expire_samePins (s : State) (i : HoldIdx) : SamePins s (s.expire i) := by
  unfold expire
  split
  · exact .refl ..
  · exact (modifyPort_samePins _ _ _ (by simp)).trans (handOver_samePins ..)

theorem decreaseHold_keeps (s : State) (i : HoldIdx) : Keeps s (s.decreaseHold i) [.holds, .ports] := by
  unfold decreaseHold
  split
  · exact .refl ..
  · split
    · exact (setHold_keeps ..).mono
    · exact expire_keeps ..

theorem decreaseHold_samePins (s : State) (i : HoldIdx) : SamePins s (s.decreaseHold i) := by
  unfold decreaseHold
  split
  · exact .refl ..
  · split
    · exact (setHold_keeps ..).samePins
    · exact expire_samePins ..

/-! ### Polls -/

theorem undue_keeps (s : State) (n : PollIdx) : Keeps s (s.undue n) [.due] := mapDue_keeps ..

theorem tellPoll_keeps (s : State) (n : PollIdx) (x : BitVec 3) : Keeps s (s.tellPoll n x) [.ports] := mapPorts_keeps ..

theorem tellPoll_samePins (s : State) (n : PollIdx) (x : BitVec 3) : SamePins s (s.tellPoll n x) := by
  refine mapPorts_samePins _ _ fun p ps => ?_
  split <;> simp

theorem completePoll_keeps (s : State) (n : PollIdx) (st : Status) (data : List Byte) :
    Keeps s (s.completePoll n st data) [.ports, .polls] := by
  unfold completePoll
  dsimp only
  split
  · exact (setPoll_keeps ..).mono
  · split
    · exact ((tellPoll_keeps ..).mono).trans ((setPoll_keeps ..).mono)
    · exact (setPoll_keeps ..).mono

theorem completePoll_samePins (s : State) (n : PollIdx) (st : Status) (data : List Byte) :
    SamePins s (s.completePoll n st data) := by
  unfold completePoll
  dsimp only
  split
  · exact (setPoll_keeps ..).samePins
  · split
    · exact (tellPoll_samePins ..).trans ((setPoll_keeps ..).samePins)
    · exact (setPoll_keeps ..).samePins

/-- A completion that is not DONE tells no port (R121). -/
theorem completePoll_keeps_of_ne_done (s : State) (n : PollIdx) (st : Status) (data : List Byte) (h : st ≠ .done) :
    Keeps s (s.completePoll n st data) [.polls] := by
  unfold completePoll
  dsimp only
  split
  · exact setPoll_keeps ..
  · simp only [h, decide_false, Bool.false_and, Bool.false_eq_true, if_false]
    exact setPoll_keeps ..

/-! ### Going offline -/

theorem endHolds_keeps (s : State) (g : Seg) : Keeps s (s.endHolds g) [.holds, .ports] := by
  refine Keeps.foldl (fun s i => ?_) _ s
  split
  · split
    · exact ((modifyPort_keeps ..).mono).trans ((setHold_keeps ..).mono)
    · exact .refl ..
  · exact .refl ..

theorem endHolds_samePins (s : State) (g : Seg) : SamePins s (s.endHolds g) := by
  refine SamePins.foldl (fun s i => ?_) _ s
  split
  · split
    · exact (modifyPort_samePins _ _ _ (by simp)).trans ((setHold_keeps ..).samePins)
    · exact .refl ..
  · exact .refl ..

theorem drainLanes_keeps (s : State) (g : Seg) : Keeps s (s.drainLanes g) [.ports] := mapPorts_keeps ..

theorem drainLanes_samePins (s : State) (g : Seg) : SamePins s (s.drainLanes g) :=
  mapPorts_samePins _ _ (by simp)

theorem drainDue_keeps (s : State) (g : Seg) : Keeps s (s.drainDue g) [.due, .polls] :=
  (Keeps.foldl (fun s n => (completePoll_keeps_of_ne_done s n .segmentOffline [] (by simp)).mono) _ s).trans
    ((setDue_keeps ..).mono)

theorem segmentNotice_keeps (s : State) (g : Seg) : Keeps s (s.segmentNotice g) [.ports] := mapPorts_keeps ..

theorem segmentNotice_samePins (s : State) (g : Seg) : SamePins s (s.segmentNotice g) :=
  mapPorts_samePins _ _ (by simp)

theorem goOffline_keeps (s : State) (g : Seg) : Keeps s (s.goOffline g) [.ports, .holds, .due, .polls] :=
  ((((endHolds_keeps s g).mono).trans ((drainLanes_keeps _ g).mono)).trans ((drainDue_keeps _ g).mono)).trans
    ((segmentNotice_keeps _ g).mono)

theorem goOffline_samePins (s : State) (g : Seg) : SamePins s (s.goOffline g) :=
  (((endHolds_samePins s g).trans (drainLanes_samePins _ g)).trans (drainDue_keeps _ g).samePins).trans
    (segmentNotice_samePins _ g)

/-! ### Engine transitions -/

theorem enterDisabled_keeps (s : State) (g : Seg) :
    Keeps s (s.enterDisabled g) [.ports, .holds, .due, .polls, .engines] :=
  ((setEngine_keeps ..).mono).trans ((goOffline_keeps ..).mono)

theorem enterDisabled_samePins (s : State) (g : Seg) : SamePins s (s.enterDisabled g) :=
  ((setEngine_keeps ..).samePins).trans (goOffline_samePins ..)

theorem enterDisabled_engine (s : State) (g h : Seg) : (s.enterDisabled g).engine h =
    if g = h then { s.engine g with state := .disabled, disablePending := false } else s.engine h := by
  rw [enterDisabled, (goOffline_keeps ..).engine, setEngine_engine]

theorem enterFaulted_keeps (s : State) (g : Seg) (x : FaultReason) :
    Keeps s (s.enterFaulted g x) [.ports, .holds, .due, .polls, .engines] :=
  ((setEngine_keeps ..).mono).trans ((goOffline_keeps ..).mono)

theorem enterFaulted_samePins (s : State) (g : Seg) (x : FaultReason) : SamePins s (s.enterFaulted g x) :=
  ((setEngine_keeps ..).samePins).trans (goOffline_samePins ..)

/-- The engine after the entry into FAULTED (R101). -/
theorem enterFaulted_engine (s : State) (g h : Seg) (x : FaultReason) : (s.enterFaulted g x).engine h =
    if g = h then
      { s.engine g with
        state := .faulted
        faultReason := x
        faultCount := satInc 255 (s.engine g).faultCount
        stats := { (s.engine g).stats with faults := satInc 65535 (s.engine g).stats.faults } }
    else s.engine h := by
  rw [enterFaulted, (goOffline_keeps ..).engine, setEngine_engine]

theorem tryRecovery_keeps (s : State) (g : Seg) :
    Keeps s (s.tryRecovery g) [.ports, .holds, .due, .polls, .engines] := by
  unfold tryRecovery
  dsimp only
  split
  · exact (setEngine_keeps ..).mono
  · exact enterFaulted_keeps ..

theorem tryRecovery_samePins (s : State) (g : Seg) : SamePins s (s.tryRecovery g) := by
  unfold tryRecovery
  dsimp only
  split
  · exact (setEngine_keeps ..).samePins
  · exact enterFaulted_samePins ..

theorem setEngineState_keeps (s : State) (g : Seg) (x : EngineState) : Keeps s (s.setEngineState g x) [.engines] :=
  setEngine_keeps ..

theorem setEngineState_engine (s : State) (g h : Seg) (x : EngineState) : (s.setEngineState g x).engine h =
    if g = h then { s.engine g with state := x } else s.engine h := setEngine_engine ..

theorem enterChecking_keeps (s : State) (g : Seg) : Keeps s (s.enterChecking g) [.engines] := setEngine_keeps ..

theorem leaveTo_keeps (s : State) (g : Seg) (x : EngineState) :
    Keeps s (s.leaveTo g x) [.ports, .holds, .due, .polls, .engines] := by
  unfold leaveTo
  split
  · exact enterDisabled_keeps ..
  · exact (setEngineState_keeps ..).mono

theorem leaveTo_samePins (s : State) (g : Seg) (x : EngineState) : SamePins s (s.leaveTo g x) := by
  unfold leaveTo
  split
  · exact enterDisabled_samePins ..
  · exact (setEngineState_keeps ..).samePins

theorem count_keeps (s : State) (g : Seg) (f : Stats → Stats) : Keeps s (s.count g f) [.engines] := setEngine_keeps ..

theorem count_engine (s : State) (g h : Seg) (f : Stats → Stats) : (s.count g f).engine h =
    if g = h then { s.engine g with stats := f (s.engine g).stats } else s.engine h := setEngine_engine ..

theorem handOutcome_keeps (s : State) (g : Seg) (c : Carrier) (e : Ending) :
    Keeps s (s.handOutcome g c e) [.ports, .polls] := by
  unfold handOutcome
  split
  · split
    · exact (completeReq_keeps ..).mono
    · exact .refl ..
  · exact completePoll_keeps ..
  · exact .refl ..

theorem handOutcome_samePins (s : State) (g : Seg) (c : Carrier) (e : Ending) : SamePins s (s.handOutcome g c e) := by
  unfold handOutcome
  split
  · split
    · exact completeReq_samePins ..
    · exact .refl ..
  · exact completePoll_samePins ..
  · exact .refl ..

/-! ### Semaphores and port reset -/

theorem freeSem_keeps (s : State) (n : SemIdx) : Keeps s (s.freeSem n) [.sems, .ports] :=
  ((setSem_keeps ..).mono).trans ((mapPorts_keeps ..).mono)

theorem freeSem_samePins (s : State) (n : SemIdx) : SamePins s (s.freeSem n) := by
  unfold freeSem
  refine SamePins.trans (setSem_keeps s n .free).samePins (mapPorts_samePins _ _ fun p ps => ?_)
  split <;> simp

theorem freeSem_sem (s : State) (n m : SemIdx) : (s.freeSem n).sem m = if n = m then .free else s.sem m := by
  simp [freeSem, setSem_sem]

theorem freeSem_port (s : State) (n : SemIdx) (p : Port) : (s.freeSem n).port p =
    if (s.sem n).interest.getLsbD p.val then (s.port p).addNotices (.ofFreed n) else s.port p := by
  simp [freeSem]

theorem dropInterest_keeps (s : State) (p : Port) : Keeps s (s.dropInterest p) [.sems] := by
  exact ⟨fun y hy => by cases y <;> first | rfl | simp at hy⟩

theorem dropInterest_sem (s : State) (p : Port) (n : SemIdx) : (s.dropInterest p).sem n =
    { s.sem n with interest := (s.sem n).interest &&& ~~~(BitVec.twoPow 3 p.val) } := by
  simp [dropInterest, sem]

theorem freeOwned_keeps (s : State) (p : Port) : Keeps s (s.freeOwned p) [.sems, .ports] := by
  refine Keeps.foldl (fun s n => ?_) _ s
  split
  · exact freeSem_keeps ..
  · exact .refl ..

theorem freeOwned_samePins (s : State) (p : Port) : SamePins s (s.freeOwned p) := by
  refine SamePins.foldl (fun s n => ?_) _ s
  split
  · exact freeSem_samePins ..
  · exact .refl ..

theorem handOverAll_keeps (s : State) (p : Port) : Keeps s (s.handOverAll p) [.holds, .ports] := by
  exact ((mapHolds_keeps ..).mono).trans (mapPorts_keeps ..).mono

theorem handOverAll_samePins (s : State) (p : Port) : SamePins s (s.handOverAll p) := by
  exact (mapHolds_keeps ..).samePins.trans (mapPorts_samePins _ _ fun _ _ => by simp)

@[simp] theorem handOverAll_port (s : State) (p q : Port) :
    (s.handOverAll p).port q = (s.port q).grantAll ((s.served p).filter fun w => w.port = q) := by
  simp [handOverAll]

/-- A hold of the port is handed over, any other stands. -/
theorem handOverAll_hold (s : State) (p : Port) (i : HoldIdx) : (s.handOverAll p).hold i =
    (s.hold i).bind fun e => if e.holder = p then e.handedOver else some e := by
  simp only [handOverAll, mapPorts_hold, mapHolds_hold]
  cases s.hold i <;> rfl

theorem resetPort_keeps (s : State) (p : Port) :
    Keeps s (s.resetPort p) [.ports, .engines, .holds, .arbiters, .sems, .freeCount] := by
  unfold resetPort
  refine Keeps.trans ?_ (freeOwned_keeps ..).mono
  refine Keeps.trans ?_ (dropInterest_keeps ..).mono
  refine Keeps.trans ?_ (mapArbiters_keeps ..).mono
  refine Keeps.trans ?_ (handOverAll_keeps ..).mono
  refine Keeps.trans ?_ (dropWaiters_keeps ..).mono
  refine Keeps.trans ?_ (draw_keeps ..).mono
  refine Keeps.trans ?_ (mapEngines_keeps ..).mono
  exact (modifyPort_keeps ..).mono

theorem resetPort_samePins (s : State) (p : Port) : SamePins s (s.resetPort p) := by
  unfold resetPort
  refine SamePins.trans ?_ (freeOwned_samePins ..)
  refine SamePins.trans ?_ (dropInterest_keeps ..).samePins
  refine SamePins.trans ?_ (mapArbiters_keeps ..).samePins
  refine SamePins.trans ?_ (handOverAll_samePins ..)
  refine SamePins.trans ?_ (dropWaiters_keeps ..).samePins
  refine SamePins.trans ?_ (draw_keeps ..).samePins
  refine SamePins.trans ?_ (mapEngines_keeps ..).samePins
  exact modifyPort_samePins _ _ _ fun _ => ⟨rfl, rfl⟩

/-! ### Where a transaction stands (R93, R109) -/

/-- The bus never goes back. -/
theorem busMoves_mono (g : Seg) (since : Nat) {m n : Nat} (h : m ≤ n) : busMoves g since m ≤ busMoves g since n := by
  obtain ⟨d, e⟩ : ∃ d, n + 1 - since = (m + 1 - since) + d := ⟨(n + 1 - since) - (m + 1 - since), by omega⟩
  simp only [busMoves, e, List.range_add, List.map_append, List.sum_append]
  omega

/-- A transaction with elements before it stands in one of them. -/
theorem standing_eq (t : Transaction) (g : Seg) (now : Nat) (h : t.ahead ≠ []) :
    ∃ k, k < t.ahead.length ∧ t.standing g now = t.ahead.drop k := by
  have : 0 < t.ahead.length := List.length_pos_of_ne_nil h
  exact ⟨min (busMoves g t.since now) (t.ahead.length - 1), by omega, rfl⟩

/-- What a cut leaves is never empty: it ends with the stop. -/
theorem cutShort_ne_nil (l : List BusElement) : cutShort l ≠ [] := by
  unfold cutShort
  split <;> simp

end Sys2Proof.Machine.State
end

