-- ==== Sys2Proof/Laws/Frames.lean ====
section
/-! SUPPORT. The taking and the ending of frames: what they do once the port is RUNNING, and the parts of the state that
`noFrame` and `answers` leave. -/

namespace Sys2Proof.Machine

set_option Elab.async false

namespace State

variable (s : State) (p : Port)

/-! ### noFrame and answers -/

@[simp] theorem noFrame_held : (s.noFrame p).held = s.held := rfl
@[simp] theorem noFrame_routes : (s.noFrame p).routes = s.routes := rfl
@[simp] theorem noFrame_holds : (s.noFrame p).holds = s.holds := rfl
@[simp] theorem noFrame_arbiters : (s.noFrame p).arbiters = s.arbiters := rfl
@[simp] theorem noFrame_engines : (s.noFrame p).engines = s.engines := rfl
@[simp] theorem noFrame_due : (s.noFrame p).due = s.due := rfl
@[simp] theorem noFrame_polls : (s.noFrame p).polls = s.polls := rfl
@[simp] theorem noFrame_sems : (s.noFrame p).sems = s.sems := rfl
@[simp] theorem noFrame_tenth : (s.noFrame p).tenth = s.tenth := rfl
@[simp] theorem noFrame_freeCount : (s.noFrame p).freeCount = s.freeCount := rfl
@[simp] theorem noFrame_pending : (s.noFrame p).pending = s.pending := rfl
@[simp] theorem noFrame_engine (g : Seg) : (s.noFrame p).engine g = s.engine g := rfl
@[simp] theorem noFrame_arbiter (g : Seg) : (s.noFrame p).arbiter g = s.arbiter g := rfl
@[simp] theorem noFrame_route (i : RouteIdx) : (s.noFrame p).route i = s.route i := rfl
@[simp] theorem noFrame_hold (i : HoldIdx) : (s.noFrame p).hold i = s.hold i := rfl
@[simp] theorem noFrame_poll (n : PollIdx) : (s.noFrame p).poll n = s.poll n := rfl
@[simp] theorem noFrame_sem (n : SemIdx) : (s.noFrame p).sem n = s.sem n := rfl
@[simp] theorem noFrame_dueOf (g : Seg) : (s.noFrame p).dueOf g = s.dueOf g := rfl

theorem noFrame_port (q : Port) :
    (s.noFrame p).port q = if p = q then { s.port q with frame := none } else s.port q :=
  modifyPort_port ..

@[simp] theorem noFrame_port_self : (s.noFrame p).port p = { s.port p with frame := none } :=
  modifyPort_port_self ..

theorem noFrame_port_ne {p q : Port} (h : p ≠ q) : (s.noFrame p).port q = s.port q := modifyPort_port_ne _ h _

@[simp] theorem noFrame_port_role (q : Port) : ((s.noFrame p).port q).role = (s.port q).role := by
  rw [noFrame_port]; split <;> rfl
@[simp] theorem noFrame_port_inReset (q : Port) : ((s.noFrame p).port q).inReset = (s.port q).inReset := by
  rw [noFrame_port]; split <;> rfl
@[simp] theorem noFrame_port_framingFlag (q : Port) : ((s.noFrame p).port q).framingFlag = (s.port q).framingFlag := by
  rw [noFrame_port]; split <;> rfl
@[simp] theorem noFrame_port_framingCount (q : Port) : ((s.noFrame p).port q).framingCount = (s.port q).framingCount := by
  rw [noFrame_port]; split <;> rfl
@[simp] theorem noFrame_port_mask (q : Port) : ((s.noFrame p).port q).mask = (s.port q).mask := by
  rw [noFrame_port]; split <;> rfl
@[simp] theorem noFrame_port_reqs (q : Port) : ((s.noFrame p).port q).reqs = (s.port q).reqs := by
  rw [noFrame_port]; split <;> rfl
@[simp] theorem noFrame_port_results (q : Port) : ((s.noFrame p).port q).results = (s.port q).results := by
  rw [noFrame_port]; split <;> rfl
@[simp] theorem noFrame_port_postedFault (q : Port) : ((s.noFrame p).port q).postedFault = (s.port q).postedFault := by
  rw [noFrame_port]; split <;> rfl
@[simp] theorem noFrame_port_holdEnds (q : Port) : ((s.noFrame p).port q).holdEnds = (s.port q).holdEnds := by
  rw [noFrame_port]; split <;> rfl
@[simp] theorem noFrame_port_lostEnds (q : Port) : ((s.noFrame p).port q).lostEnds = (s.port q).lostEnds := by
  rw [noFrame_port]; split <;> rfl
@[simp] theorem noFrame_port_notices (q : Port) : ((s.noFrame p).port q).notices = (s.port q).notices := by
  rw [noFrame_port]; split <;> rfl

@[simp] theorem noFrame_running (q : Port) : (s.noFrame p).running q = s.running q := by
  simp [running]

@[simp] theorem noFrame_hasClaim (q : Port) : (s.noFrame p).hasClaim q = s.hasClaim q := rfl

theorem noFrame_setEngine (g : Seg) (x : Engine) : (s.noFrame p).setEngine g x = (s.setEngine g x).noFrame p := rfl
theorem noFrame_setArbiter (g : Seg) (x : Arbiter) : (s.noFrame p).setArbiter g x = (s.setArbiter g x).noFrame p := rfl
theorem noFrame_setRoute (i : RouteIdx) (x : RouteEntry) : (s.noFrame p).setRoute i x = (s.setRoute i x).noFrame p := rfl
theorem noFrame_setHold (i : HoldIdx) (x : Option HoldEntry) : (s.noFrame p).setHold i x = (s.setHold i x).noFrame p := rfl
theorem noFrame_setPoll (n : PollIdx) (x : PollEntry) : (s.noFrame p).setPoll n x = (s.setPoll n x).noFrame p := rfl
theorem noFrame_setSem (n : SemIdx) (x : Semaphore) : (s.noFrame p).setSem n x = (s.setSem n x).noFrame p := rfl
theorem noFrame_setDue (g : Seg) (x : List PollIdx) : (s.noFrame p).setDue g x = (s.setDue g x).noFrame p := rfl
theorem noFrame_mapHolds (f : Option HoldEntry → Option HoldEntry) : (s.noFrame p).mapHolds f = (s.mapHolds f).noFrame p := rfl
theorem noFrame_mapEngines (f : Seg → Engine → Engine) : (s.noFrame p).mapEngines f = (s.mapEngines f).noFrame p := rfl
theorem noFrame_draw : (s.noFrame p).draw = s.draw.noFrame p := rfl
theorem noFrame_mapArbiters (f : Arbiter → Arbiter) : (s.noFrame p).mapArbiters f = (s.mapArbiters f).noFrame p := rfl
theorem noFrame_mapPolls (f : PollEntry → PollEntry) : (s.noFrame p).mapPolls f = (s.mapPolls f).noFrame p := rfl
theorem noFrame_mapDue (f : List PollIdx → List PollIdx) : (s.noFrame p).mapDue f = (s.mapDue f).noFrame p := rfl

theorem noFrame_modifyPort (f : PortState → PortState) :
    (s.noFrame p).modifyPort p f = s.modifyPort p (fun ps => f { ps with frame := none }) :=
  modifyPort_modifyPort ..

@[simp] theorem noFrame_answers (k : FrameKind) (reply : List Byte) (snap : Snapshot) :
    (s.noFrame p).answers p k reply snap = s.answers p k reply snap := by
  simp [answers, noFrame_modifyPort, answered]

theorem answers_keeps (k : FrameKind) (reply : List Byte) (snap : Snapshot) :
    Keeps s (s.answers p k reply snap) [.ports] := modifyPort_keeps ..

theorem noFrame_keeps : Keeps s (s.noFrame p) [.ports] := modifyPort_keeps ..

theorem answers_samePins (k : FrameKind) (reply : List Byte) (snap : Snapshot) :
    SamePins s (s.answers p k reply snap) := modifyPort_samePins _ _ _ fun _ => ⟨rfl, rfl⟩

theorem noFrame_samePins : SamePins s (s.noFrame p) := modifyPort_samePins _ _ _ fun _ => ⟨rfl, rfl⟩

@[simp] theorem answers_port_self (k : FrameKind) (reply : List Byte) (snap : Snapshot) :
    (s.answers p k reply snap).port p = answered (s.port p) k k.requestLen reply snap := modifyPort_port_self ..

theorem answers_port_ne {p q : Port} (h : p ≠ q) (k : FrameKind) (reply : List Byte) (snap : Snapshot) :
    (s.answers p k reply snap).port q = s.port q := modifyPort_port_ne _ h _

@[simp] theorem answers_reply (k : FrameKind) (reply : List Byte) (snap : Snapshot) :
    (s.answers p k reply snap).reply p = some reply := by
  simp [State.reply, answered]

theorem running_iff : s.running p = true ↔ s.held = false ∧ (s.port p).inReset = false := by
  simp [running]

theorem hasClaim_iff : s.hasClaim p = true ↔ (s.sem 0).owner = some p := by
  simp [hasClaim]

end State

/-! ### Taking a frame (R155) -/

variable {s : State} {p : Port}

theorem takeFrame_not_running {k : Option FrameKind} {n : Nat} {act : State → Answer} (h : s.running p = false) :
    takeFrame p k n act s = s := by
  simp [takeFrame, h]

theorem frameOf_not_running {k : FrameKind} {act : State → Answer} (h : s.running p = false) :
    frameOf p k act s = s := takeFrame_not_running h

/-- A frame taken on a RUNNING port: the block acts on the state with no frame in progress, and the port then holds the
block's reply. -/
theorem frameOf_running {k : FrameKind} {act : State → Answer} (h : s.running p = true) :
    frameOf p k act s =
      (act (s.noFrame p)).state.answers p k (act (s.noFrame p)).reply (act (s.noFrame p)).snapshot := by
  simp [frameOf, takeFrame, h, State.noFrame, State.answers, State.answered]

/-- A frame that changes no state beside its own port's frame in progress. -/
theorem frameOf_reading {k : FrameKind} {act : State → Answer} {reply : List Byte} {snap : Snapshot}
    (h : s.running p = true) (a : act (s.noFrame p) = ⟨s.noFrame p, reply, snap⟩) :
    frameOf p k act s = s.answers p k reply snap := by
  rw [frameOf_running h, a, State.noFrame_answers]

/-! ### The end of a frame (R158) -/

theorem frameEnd_running {k : FrameKind} {act : Snapshot → State → State} {f : Frame} (h : s.running p = true)
    (hf : (s.port p).frame = some f) (hk : f.kind = some k) :
    frameEnd p k act s = act f.snapshot (s.noFrame p) := by
  simp [frameEnd, hf, h, hk, State.noFrame]

theorem frameEnd_not_running {k : FrameKind} {act : Snapshot → State → State} (h : s.running p = false) :
    frameEnd p k act s = s := by
  unfold frameEnd
  split <;> simp [h]

/-! ### Events of the hub (R163) -/

theorem hubEvent_held {act : State → State} (h : s.held = true) : hubEvent act s = s := by
  simp [hubEvent, h]

theorem hubEvent_running {act : State → State} (h : s.held = false) : hubEvent act s = act s := by
  simp [hubEvent, h]

/-! ### Checks of operands -/

theorem readIdx_of_lt {n : Nat} {b : Byte} (i : Fin n) (h : b.toNat = i.val) : readIdx n b = some i := by
  simp [readIdx, h]

theorem readIdx_of_le {n : Nat} {b : Byte} (h : n ≤ b.toNat) : readIdx n b = none := by
  simp [readIdx, Nat.not_lt.mpr h]

theorem withClaim_yes {k : FrameKind} {act : Answer} (h : s.hasClaim p = true) : withClaim p k s act = act := by
  simp [withClaim, h]

theorem withClaim_no {k : FrameKind} {act : Answer} (h : s.hasClaim p = false) :
    withClaim p k s act = refuse s k .notClaimed := by
  simp [withClaim, h]

theorem withIndex_of_lt {n : Nat} {b : Byte} {k : FrameKind} {act : Fin n → Answer} (i : Fin n) (h : b.toNat = i.val) :
    withIndex n b k s act = act i := by
  simp [withIndex, readIdx_of_lt i h]

theorem withIndex_of_le {n : Nat} {b : Byte} {k : FrameKind} {act : Fin n → Answer} (h : n ≤ b.toNat) :
    withIndex n b k s act = refuse s k .badIndex := by
  simp [withIndex, readIdx_of_le h]

/-! ### Reply parts (R167) -/

theorem padTo_length (n : Nat) (bytes : List Byte) : (padTo n bytes).length = n := by
  simp [padTo]

theorem answer_length (k : FrameKind) (st : ReplyStatus) (fields : List Byte) :
    (answer k st fields).length = k.replyLen := padTo_length ..

theorem padTo_eq {n : Nat} {bytes : List Byte} (h : bytes.length ≤ n) :
    padTo n bytes = bytes ++ List.replicate (n - bytes.length) 0 := by
  rw [padTo, List.take_append, List.take_of_length_le h, List.take_replicate]
  congr 2
  omega

/-! ### The queue is exec's alone to keep -/

theorem frameOf_keeps {k : FrameKind} {act : State → Answer} {l : List State.Part} (hp : .ports ∈ l)
    (h : ∀ s, State.Keeps s (act s).state l) (s : State) : State.Keeps s (frameOf p k act s) l := by
  cases hr : s.running p
  · rw [frameOf_not_running hr]
    exact .refl ..
  · rw [frameOf_running hr]
    have a : State.Keeps s (s.noFrame p) l := (State.noFrame_keeps ..).mono (by simp [hp])
    have b := (State.answers_keeps (act (s.noFrame p)).state p k (act (s.noFrame p)).reply
      (act (s.noFrame p)).snapshot).mono (l' := l) (by simp [hp])
    exact (a.trans (h _)).trans b

theorem frameEnd_keeps {k : FrameKind} {act : Snapshot → State → State} {l : List State.Part} (hp : .ports ∈ l)
    (h : ∀ x s, State.Keeps s (act x s) l) (s : State) : State.Keeps s (frameEnd p k act s) l := by
  unfold frameEnd
  split
  · next f _ =>
    split
    · have a : State.Keeps s (s.noFrame p) l := (State.noFrame_keeps ..).mono (by simp [hp])
      exact a.trans (h f.snapshot (s.noFrame p))
    · exact .refl ..
  · exact .refl ..

theorem hubEvent_keeps {act : State → State} {l : List State.Part} (h : ∀ s, State.Keeps s (act s) l) (s : State) :
    State.Keeps s (hubEvent act s) l := by
  unfold hubEvent
  split
  · exact .refl ..
  · exact h s

end Sys2Proof.Machine
end

