-- ==== Sys2Proof/Laws/Exec.lean ====
section
/-! SUPPORT. The parts of the state each command can change, and the proof that it changes no other. -/

namespace Sys2Proof.Machine

set_option Elab.async false

open State

/-- The parts of the state that a command can change. -/
def changes : Instr → List Part
  | .submit _ _ | .laneInspect _ | .fetch _ | .fetchNormalEnd _ | .postedFault _ | .postedFaultNormalEnd _
  | .holdEnds _ | .holdEndsNormalEnd _ | .notices _ | .noticesNormalEnd _ | .causes _ _ | .causeMask _ _
  | .routeGet _ _ | .pollGet _ _ | .pollRead _ _ | .hubInfo _ | .portReset _ | .hubReset _ | .badFrame _ _
  | .framingError _ | .frameEndsEarly _ | .prstxnRise _ => [.ports]
  | .cancel _ _ | .holdSettlement _ _ | .releaseSettlement _ _ | .holdDecrease _ | .holdExpiry _ => [.ports, .holds]
  | .semTake _ _ | .semGive _ _ | .semBreak _ _ => [.ports, .sems]
  | .routeSet _ _ | .routeClear _ _ => [.ports, .routes, .holds, .due, .polls]
  | .pollSet _ _ | .pollStart _ _ | .pollStop _ _ | .pollCountdown _ | .pollDue _ => [.ports, .polls, .due]
  | .segmentSet _ _ => [.ports, .engines, .arbiters]
  | .segmentGet _ _ => [.ports, .freeCount]
  | .segmentRestore _ _ | .statsClear _ _ => [.ports, .engines]
  | .segmentDisable _ _ | .transactionEnd _ _ _ | .lineConflict _ _ | .timeout _ _ | .cutEnd _ | .limitWindowEnd _
  | .recoverySclTimeout _ | .recoveryPulseEnd _ _ | .recoveryStopEnd _ => [.ports, .holds, .due, .polls, .engines]
  | .lineLowInIdle _ | .freeWindowComplete _ | .freeWindowRestart _ | .recoverySclHigh _ _ => [.engines]
  | .portResetNormalEnd _ | .prstxnFall _ => [.ports, .engines, .holds, .arbiters, .sems, .freeCount]
  | .hubResetNormalEnd _ => [.ports, .holds, .sems, .arbiters, .engines, .polls, .due, .freeCount]
  | .resetnFall => [.held, .ports]
  | .resetnRise _ _ _ => [.held, .ports, .routes, .holds, .arbiters, .engines, .due, .polls, .sems, .tenth]
  | .arbiterDecision _ => [.ports, .arbiters, .engines, .due, .polls]
  | .ageIncrease => [.polls]

/-- No command changes the queue. -/
theorem pending_not_mem_changes (c : Instr) : Part.pending ∉ changes c := by
  cases c <;> simp [changes]

/-! ### The operations of the families -/

theorem addOpen_keeps (s : State) (p : Port) (r : Request) : Keeps s (s.addOpen p r) [.ports] := modifyPort_keeps ..

theorem cancelReq_keeps (s : State) (p : Port) (tag : Byte) : Keeps s (s.cancelReq p tag).1 [.ports, .holds] := by
  unfold cancelReq
  split
  · exact .refl ..
  · split
    · exact (completeReq_keeps ..).mono
    · dsimp only
      exact ((dropWaiters_keeps ..).mono).trans (completeReq_keeps ..).mono
    · exact .refl ..

theorem semTake_keeps (s : State) (p : Port) (i : SemIdx) : Keeps s (s.semTake p i).1 [.sems] := by
  unfold semTake
  split
  · exact .refl ..
  · split
    · exact setSem_keeps ..
    · split
      · exact .refl ..
      · exact setSem_keeps ..

theorem semGive_keeps (s : State) (p : Port) (i : SemIdx) : Keeps s (s.semGive p i).1 [.sems, .ports] := by
  unfold semGive
  split
  · exact freeSem_keeps ..
  · exact .refl ..

theorem semBreak_keeps (s : State) (i : SemIdx) : Keeps s (s.semBreak i).1 [.sems, .ports] := by
  unfold semBreak
  split
  · dsimp only
    exact (freeSem_keeps ..).trans (modifyPort_keeps ..).mono
  · exact .refl ..

theorem sweepPort_keeps (s : State) (i : RouteIdx) (p : Port) : Keeps s (s.sweepPort i p) [.holds, .ports] :=
  ((dropWaiters_keeps ..).mono).trans (modifyPort_keeps ..).mono

theorem sweepPolls_keeps (s : State) (i : RouteIdx) : Keeps s (s.sweepPolls i) [.due, .polls] :=
  ((mapDue_keeps ..).mono).trans (mapPolls_keeps ..).mono

theorem sweep_keeps (s : State) (i : RouteIdx) : Keeps s (s.sweep i) [.holds, .ports, .due, .polls] :=
  (Keeps.foldl (fun s p => (sweepPort_keeps s i p).mono) allPorts s).trans (sweepPolls_keeps ..).mono

theorem becomeDue_keeps (s : State) (n : PollIdx) : Keeps s (s.becomeDue n) [.ports, .polls, .due] := by
  unfold becomeDue
  dsimp only
  split
  · exact (setPoll_keeps ..).mono
  · split
    · exact ((setPoll_keeps ..).mono).trans (completePoll_keeps ..).mono
    · exact ((setPoll_keeps ..).mono).trans (setDue_keeps ..).mono

theorem countdown_keeps (s : State) (n : PollIdx) : Keeps s (s.countdown n) [.ports, .polls, .due] := by
  unfold countdown
  dsimp only
  split
  · split
    · exact (setPoll_keeps ..).mono
    · exact becomeDue_keeps ..
  · exact .refl ..

theorem settleHold_keeps (s : State) (p : Port) (r : Request) : Keeps s (s.settleHold p r) [.ports, .holds] := by
  unfold settleHold
  dsimp only
  split
  · split
    · split
      · exact (completeReq_keeps ..).mono
      · exact ((setHold_keeps ..).mono).trans (modifyPort_keeps ..).mono
    · exact .refl ..
  · split
    · exact ((setHold_keeps ..).mono).trans (completeReq_keeps ..).mono
    · exact (completeReq_keeps ..).mono

theorem settleRelease_keeps (s : State) (p : Port) (r : Request) : Keeps s (s.settleRelease p r) [.ports, .holds] := by
  unfold settleRelease
  split
  · split
    · exact ((handOver_keeps ..).mono).trans (completeReq_keeps ..).mono
    · exact (completeReq_keeps ..).mono
  · exact (completeReq_keeps ..).mono

theorem grant_keeps (s : State) (g : Seg) (c : Candidate) :
    Keeps s (s.grant g c) [.ports, .engines, .due, .polls] := by
  unfold grant
  dsimp only
  split
  · exact ((modifyPort_keeps ..).mono).trans (setEngine_keeps ..).mono
  · exact (((setDue_keeps ..).mono).trans (setPoll_keeps ..).mono).trans (setEngine_keeps ..).mono

theorem runDecision_keeps (g : Seg) (fuel : Nat) : ∀ s : State,
    Keeps s (runDecision g fuel s) [.ports, .arbiters, .engines, .due, .polls] := by
  induction fuel with
  | zero => intro s; exact .refl ..
  | succ fuel ih =>
    intro s
    unfold runDecision
    split
    · exact .refl ..
    · split
      · exact .refl ..
      · split
        · exact (((setArbiter_keeps ..).mono).trans (completeReq_keeps ..).mono).trans (ih _)
        · exact ((setArbiter_keeps ..).mono).trans (grant_keeps ..).mono
      · exact ((setArbiter_keeps ..).mono).trans (grant_keeps ..).mono

theorem endTransaction_keeps (s : State) (g : Seg) (t : Transaction) (e : Ending) :
    Keeps s (s.endTransaction g t e) [.ports, .holds, .due, .polls, .engines] := by
  unfold endTransaction
  refine Keeps.trans ?_ (leaveTo_keeps ..)
  refine Keeps.trans ?_ (handOutcome_keeps ..).mono
  exact ((count_keeps ..).mono).trans (setEngine_keeps ..).mono

theorem conflict_keeps (s : State) (g : Seg) (t : Transaction) (acks : List Bool) :
    Keeps s (s.conflict g t acks) [.ports, .holds, .due, .polls, .engines] := by
  unfold conflict
  refine Keeps.trans ?_ (leaveTo_keeps ..)
  exact ((count_keeps ..).mono).trans (handOutcome_keeps ..).mono

theorem expireLimit_keeps (s : State) (g : Seg) (t : Transaction) (acks : List Bool) :
    Keeps s (s.expireLimit g t acks) [.ports, .holds, .due, .polls, .engines] := by
  unfold expireLimit
  dsimp only
  have a : ∀ x e, Keeps s ((s.count g x).handOutcome g t.carrier e) [.ports, .holds, .due, .polls, .engines] :=
    fun x e => ((count_keeps ..).mono).trans (handOutcome_keeps ..).mono
  split
  · exact (a ..).trans (enterDisabled_keeps ..)
  · exact (a ..).trans (tryRecovery_keeps ..)

theorem afterPulse_keeps (s : State) (g : Seg) (n : Nat) (h sda : Bool) :
    Keeps s (s.afterPulse g n h sda) [.ports, .holds, .due, .polls, .engines] := by
  unfold afterPulse
  split
  · exact (enterChecking_keeps ..).mono
  · split
    · exact (setEngineState_keeps ..).mono
    · split
      · exact (setEngineState_keeps ..).mono
      · exact enterFaulted_keeps ..

theorem look_keeps (s : State) (g : Seg) : Keeps s (s.look g) [.freeCount] := by
  unfold look
  split
  · exact draw_keeps ..
  · exact .refl ..

theorem hubCleared_keeps (s : State) :
    Keeps s s.hubCleared [.ports, .holds, .sems, .arbiters, .engines, .polls, .due, .freeCount] :=
  ⟨fun y hy => by cases y <;> first | rfl | simp at hy⟩

theorem State.hubReset_keeps (s : State) :
    Keeps s s.hubReset [.ports, .holds, .sems, .arbiters, .engines, .polls, .due, .freeCount] := by
  unfold hubReset
  refine (hubCleared_keeps s).trans (Keeps.foldl (fun t g => ?_) _ _)
  split
  · exact (segmentNotice_keeps ..).mono
  · exact .refl ..

theorem withClaim_keeps {p : Port} {k : FrameKind} {s : State} {act : Answer} {l : List Part}
    (h : Keeps s act.state l) : Keeps s (withClaim p k s act).state l := by
  unfold withClaim
  split
  · exact h
  · exact .refl ..

theorem withIndex_keeps {n : Nat} {b : Byte} {k : FrameKind} {s : State} {act : Fin n → Answer} {l : List Part}
    (h : ∀ i, Keeps s (act i).state l) : Keeps s (withIndex n b k s act).state l := by
  unfold withIndex
  split
  · exact h _
  · exact .refl ..

/-! ### Every command -/

theorem next_keeps {s t u : State} {l : List Part} (h : Keeps s u l)
    (e : (.next u : Host.Outcome State Fault Refusal) = .next t) : Keeps s t l := by
  cases e
  exact h

/-- A frame whose block keeps what the list leaves out. -/
theorem frame_keeps {k : FrameKind} {p : Port} {act : State → Answer} {s t : State} {l : List Part}
    (h : ∀ s, Keeps s (act s).state l) (hp : .ports ∈ l)
    (e : (.next (frameOf p k act s) : Host.Outcome State Fault Refusal) = .next t) : Keeps s t l :=
  next_keeps (frameOf_keeps hp h s) e

/-- An event of the hub whose act keeps what the list leaves out. -/
theorem event_keeps {act : State → State} {s t : State} {l : List Part} (h : ∀ s, Keeps s (act s) l)
    (e : (.next (hubEvent act s) : Host.Outcome State Fault Refusal) = .next t) : Keeps s t l :=
  next_keeps (hubEvent_keeps h s) e

/-- A frame end whose removal keeps what the list leaves out. -/
theorem end_keeps {k : FrameKind} {p : Port} {act : Snapshot → State → State} {s t : State} {l : List Part}
    (h : ∀ x s, Keeps s (act x s) l) (hp : .ports ∈ l)
    (e : (.next (frameEnd p k act s) : Host.Outcome State Fault Refusal) = .next t) : Keeps s t l :=
  next_keeps (frameEnd_keeps hp h s) e

/-- A command changes no part of the state but those `changes` lists. -/
theorem exec_keeps {c : Instr} {s t : State} (e : exec c s = .next t) : Keeps s t (changes c) := by
  cases c with
  | submit p f =>
    dsimp only [changes]
    refine next_keeps ?_ e
    show Keeps s (takeFrame ..) [.ports]
    unfold takeFrame
    split
    · refine Keeps.trans ?_ (modifyPort_keeps ..)
      have a : Keeps s (s.modifyPort p fun ps => { ps with frame := none }) [.ports] := modifyPort_keeps ..
      refine a.trans ?_
      dsimp only
      split
      · exact addOpen_keeps ..
      · exact .refl ..
    · exact .refl ..
  | badFrame p k =>
    dsimp only [changes]
    refine next_keeps ?_ e
    show Keeps s (takeFrame ..) [.ports]
    unfold takeFrame
    split
    · refine Keeps.trans ?_ (modifyPort_keeps ..)
      have a : Keeps s (s.modifyPort p fun ps => { ps with frame := none }) [.ports] := modifyPort_keeps ..
      exact a.trans (modifyPort_keeps ..)
    · exact .refl ..
  | framingError p | frameEndsEarly p | prstxnRise p =>
    dsimp only [changes]
    refine next_keeps ?_ e
    split
    · exact modifyPort_keeps ..
    · exact .refl ..
  | prstxnFall p =>
    dsimp only [changes]
    refine next_keeps ?_ e
    split
    · exact ((resetPort_keeps ..).mono).trans (modifyPort_keeps ..).mono
    · exact (modifyPort_keeps ..).mono
  | resetnFall =>
    dsimp only [changes]
    exact next_keeps ⟨fun y hy => by cases y <;> first | rfl | simp at hy⟩ e
  | resetnRise a b c =>
    dsimp only [changes]
    exact next_keeps ⟨fun y hy => by cases y <;> first | rfl | simp at hy⟩ e
  | laneInspect p | hubInfo p | portReset p | holdEnds p | notices p =>
    dsimp only [changes]
    exact frame_keeps (fun _ => .refl ..) (by decide) e
  | fetch p | postedFault p =>
    dsimp only [changes]
    refine frame_keeps (fun s => ?_) (by decide) e
    split <;> exact .refl ..
  | causes p b =>
    dsimp only [changes]
    refine frame_keeps (fun s => ?_) (by decide) e
    dsimp only
    split
    · exact modifyPort_keeps ..
    · exact .refl ..
  | causeMask p b =>
    dsimp only [changes]
    refine frame_keeps (fun s => ?_) (by decide) e
    dsimp only
    exact modifyPort_keeps ..
  | cancel p b =>
    dsimp only [changes]
    exact frame_keeps (fun _ => cancelReq_keeps ..) (by decide) e
  | semTake p b =>
    dsimp only [changes]
    refine frame_keeps (fun s => ?_) (by decide) e
    split
    · exact .refl ..
    · exact (semTake_keeps ..).mono
  | semGive p b =>
    dsimp only [changes]
    refine frame_keeps (fun s => ?_) (by decide) e
    split
    · exact .refl ..
    · exact (semGive_keeps ..).mono
  | semBreak p b =>
    dsimp only [changes]
    refine frame_keeps (fun s => ?_) (by decide) e
    split
    · exact .refl ..
    · split
      · exact .refl ..
      · exact (semBreak_keeps ..).mono
  | routeGet p b | pollGet p b | pollRead p b =>
    dsimp only [changes]
    exact frame_keeps (fun _ => withIndex_keeps fun _ => .refl ..) (by decide) e
  | routeSet p f =>
    dsimp only [changes]
    refine frame_keeps (fun s => withClaim_keeps (withIndex_keeps fun i => ?_)) (by decide) e
    unfold State.routeSet
    split
    · exact .refl ..
    · split
      · exact .refl ..
      · split
        · exact ((setRoute_keeps ..).mono).trans (sweep_keeps ..).mono
        · exact (setRoute_keeps ..).mono
  | routeClear p b =>
    dsimp only [changes]
    refine frame_keeps (fun s => withClaim_keeps (withIndex_keeps fun i => ?_)) (by decide) e
    unfold State.routeClear
    split
    · exact ((setRoute_keeps ..).mono).trans (sweep_keeps ..).mono
    · exact .refl ..
  | pollSet p f =>
    dsimp only [changes]
    refine frame_keeps (fun s => withClaim_keeps (withIndex_keeps fun i => ?_)) (by decide) e
    unfold State.pollSet
    split
    · exact .refl ..
    · split
      · exact ((undue_keeps ..).mono).trans (setPoll_keeps ..).mono
      · exact .refl ..
  | pollStart p f =>
    dsimp only [changes]
    refine frame_keeps (fun s => withClaim_keeps (withIndex_keeps fun i => ?_)) (by decide) e
    unfold State.pollStart
    dsimp only
    split
    · dsimp only
      split
      · exact .refl ..
      · exact (setPoll_keeps ..).mono
    · exact .refl ..
  | pollStop p f =>
    dsimp only [changes]
    refine frame_keeps (fun s => withClaim_keeps (withIndex_keeps fun i => ?_)) (by decide) e
    exact ((undue_keeps ..).mono).trans (setPoll_keeps ..).mono
  | segmentSet p f =>
    dsimp only [changes]
    refine frame_keeps (fun s => withClaim_keeps (withIndex_keeps fun i => ?_)) (by decide) e
    unfold State.segmentSet
    split
    · exact .refl ..
    · exact ((setEngine_keeps ..).mono).trans (setArbiter_keeps ..).mono
  | segmentGet p b =>
    dsimp only [changes]
    exact frame_keeps (fun _ => withIndex_keeps fun _ => (look_keeps ..).mono) (by decide) e
  | segmentDisable p b =>
    dsimp only [changes]
    refine frame_keeps (fun s => withClaim_keeps (withIndex_keeps fun i => ?_)) (by decide) e
    unfold State.segmentDisable
    split
    · exact .refl ..
    · exact (enterDisabled_keeps ..).mono
    · exact (enterDisabled_keeps ..).mono
    · exact (enterDisabled_keeps ..).mono
    · exact (enterDisabled_keeps ..).mono
    · exact (setEngine_keeps ..).mono
    · exact (setEngine_keeps ..).mono
    · exact (setEngine_keeps ..).mono
  | segmentRestore p b =>
    dsimp only [changes]
    refine frame_keeps (fun s => withClaim_keeps (withIndex_keeps fun i => ?_)) (by decide) e
    unfold State.segmentRestore
    split
    · exact ((setEngine_keeps ..).mono).trans (segmentNotice_keeps ..).mono
    · exact .refl ..
  | statsClear p b =>
    dsimp only [changes]
    exact frame_keeps (fun _ => withClaim_keeps (withIndex_keeps fun _ => (setEngine_keeps ..).mono)) (by decide) e
  | hubReset p =>
    dsimp only [changes]
    refine frame_keeps (fun s => ?_) (by decide) e
    split
    · exact .refl ..
    · exact withClaim_keeps (.refl ..)
  | fetchNormalEnd p =>
    dsimp only [changes]
    refine end_keeps (fun x s => ?_) (by decide) e
    unfold fetchRemoval
    split
    · exact modifyPort_keeps ..
    · exact .refl ..
  | postedFaultNormalEnd p =>
    dsimp only [changes]
    refine end_keeps (fun x s => ?_) (by decide) e
    unfold postedFaultRemoval
    split
    · exact modifyPort_keeps ..
    · exact .refl ..
  | holdEndsNormalEnd p =>
    dsimp only [changes]
    refine end_keeps (fun x s => ?_) (by decide) e
    unfold holdEndsRemoval
    split
    · exact modifyPort_keeps ..
    · exact .refl ..
  | noticesNormalEnd p =>
    dsimp only [changes]
    refine end_keeps (fun x s => ?_) (by decide) e
    unfold noticesRemoval
    split
    · exact modifyPort_keeps ..
    · exact .refl ..
  | portResetNormalEnd p =>
    dsimp only [changes]
    exact end_keeps (fun _ _ => (resetPort_keeps ..).mono) (by decide) e
  | hubResetNormalEnd p =>
    dsimp only [changes]
    refine end_keeps (fun x s => ?_) (by decide) e
    split
    · exact State.hubReset_keeps ..
    · exact .refl ..
  | arbiterDecision g =>
    dsimp only [changes]
    refine event_keeps (fun s => ?_) e
    split
    · exact runDecision_keeps ..
    · exact .refl ..
  | holdSettlement p g =>
    dsimp only [changes]
    refine event_keeps (fun s => ?_) e
    split
    · exact settleHold_keeps ..
    · exact .refl ..
  | releaseSettlement p g =>
    dsimp only [changes]
    refine event_keeps (fun s => ?_) e
    split
    · exact settleRelease_keeps ..
    · exact .refl ..
  | holdDecrease i =>
    dsimp only [changes]
    exact event_keeps (fun _ => (decreaseHold_keeps ..).mono) e
  | holdExpiry i =>
    dsimp only [changes]
    refine event_keeps (fun s => ?_) e
    split
    · split
      · exact (expire_keeps ..).mono
      · exact .refl ..
    · exact .refl ..
  | transactionEnd g a d =>
    dsimp only [changes]
    refine event_keeps (fun s => ?_) e
    split
    · split
      · exact .refl ..
      · exact endTransaction_keeps ..
    · exact .refl ..
  | lineConflict g a =>
    dsimp only [changes]
    refine event_keeps (fun s => ?_) e
    split
    · exact conflict_keeps ..
    · exact .refl ..
  | timeout g a =>
    dsimp only [changes]
    refine event_keeps (fun s => ?_) e
    split
    · exact expireLimit_keeps ..
    · exact .refl ..
  | cutEnd g =>
    dsimp only [changes]
    refine event_keeps (fun s => ?_) e
    split
    · split
      · exact leaveTo_keeps ..
      all_goals exact .refl ..
    · exact .refl ..
  | lineLowInIdle g =>
    dsimp only [changes]
    refine event_keeps (fun s => ?_) e
    split
    · exact enterChecking_keeps ..
    · exact .refl ..
  | freeWindowComplete g =>
    dsimp only [changes]
    refine event_keeps (fun s => ?_) e
    split
    · exact setEngineState_keeps ..
    · exact .refl ..
  | freeWindowRestart g =>
    dsimp only [changes]
    refine event_keeps (fun s => ?_) e
    split
    · exact setEngineState_keeps ..
    · exact .refl ..
  | recoverySclHigh g b =>
    dsimp only [changes]
    refine event_keeps (fun s => ?_) e
    split
    · exact setEngineState_keeps ..
    · exact .refl ..
  | limitWindowEnd g =>
    dsimp only [changes]
    refine event_keeps (fun s => ?_) e
    split
    · exact tryRecovery_keeps ..
    · exact .refl ..
  | recoverySclTimeout g =>
    dsimp only [changes]
    refine event_keeps (fun s => ?_) e
    split
    · split
      · exact enterDisabled_keeps ..
      · exact enterFaulted_keeps ..
    · exact .refl ..
  | recoveryPulseEnd g b =>
    dsimp only [changes]
    refine event_keeps (fun s => ?_) e
    split
    · split
      · exact enterDisabled_keeps ..
      · exact afterPulse_keeps ..
    · exact .refl ..
  | recoveryStopEnd g =>
    dsimp only [changes]
    refine event_keeps (fun s => ?_) e
    split
    · exact leaveTo_keeps ..
    · exact .refl ..
  | pollCountdown n =>
    dsimp only [changes]
    exact event_keeps (fun _ => (countdown_keeps ..).mono) e
  | pollDue n =>
    dsimp only [changes]
    refine event_keeps (fun s => ?_) e
    split
    · exact becomeDue_keeps ..
    · exact .refl ..
  | ageIncrease =>
    dsimp only [changes]
    exact event_keeps (fun _ => mapPolls_keeps ..) e

end Sys2Proof.Machine
end

