-- ==== Sys2Proof/Tests/Slice0.lean ====
section
/-! SUPPORT. Tests: the operand checks refuse ill-formed commands, the frames of chapter 11 are the commands they stand
for, single steps taken from the worked examples of the manual, and for each obligation a state and operands that meet
its hypotheses. -/

namespace Sys2Proof.Tests

set_option Elab.async false

open Sys2Proof Sys2Proof.Machine Sys2Proof.Machine.State

/-! ### Small states -/

/-- The state after a command. -/
def after (c : Instr) (s : State) : State :=
  match exec c s with
  | .next t => t
  | .fault _ | .refused _ => s

/-- The hub after reset. -/
def base : State := State.reset

/-- Port 0, a SUPERVISOR, owns semaphore 0. -/
def claimed : State := base.setSem 0 ⟨some 0, 0⟩

def withEngine (s : State) (g : Seg) (st : EngineState) : State := s.setEngine g { s.engine g with state := st }

def withReqs (s : State) (p : Port) (l : List Request) : State := s.modifyPort p fun ps => { ps with reqs := l }

def withResults (s : State) (p : Port) (l : List Result) : State := s.modifyPort p fun ps => { ps with results := l }

/-- A frame of kind `k` is in progress on a port. -/
def withFrame (s : State) (p : Port) (k : FrameKind) (snap : Snapshot) : State :=
  s.modifyPort p fun ps => { ps with frame := some ⟨some k, k.requestLen, [0x00], snap⟩ }

/-- A QUEUED READ of two bytes. -/
def read2 (tag : Byte) (g : Seg) (target : Addr) : Request :=
  ⟨tag, .read, false, false, false, none, ⟨g, target⟩, [], 2, none, true, .queued⟩

/-- A QUEUED posted WRITE of one byte. -/
def posted1 (tag : Byte) (g : Seg) (target : Addr) : Request :=
  ⟨tag, .write, true, false, false, none, ⟨g, target⟩, [0xAA], 0, none, false, .queued⟩

/-- A QUEUED HOLD of 50 ms. -/
def hold5 (tag : Byte) (g : Seg) (target : Addr) : Request :=
  ⟨tag, .hold, false, false, false, none, ⟨g, target⟩, [], 0, some 5, true, .queued⟩

/-- A QUEUED RELEASE. -/
def release (tag : Byte) (g : Seg) (target : Addr) : Request :=
  ⟨tag, .release, false, false, false, none, ⟨g, target⟩, [], 0, none, true, .queued⟩

/-- An ACTIVE engine at the start of a transaction. -/
def carrying (c : Carrier) (w : Work) : EngineState := .active ⟨c, w, w.elements, .khz100, 25, 0, 0⟩

/-- Whose transaction an engine carries. -/
def carrierOf (s : State) (g : Seg) : Option Carrier :=
  match (s.engine g).state with
  | .active x => some x.carrier
  | _ => none

/-- Segment 2 carries port 1's READ of four bytes from target 0x3A, as in section 6.9. -/
def sensor : State :=
  withReqs (withEngine base 2 (carrying (.port 1) ⟨0x3A, [], 4⟩)) 1
    [{ read2 0x44 2 0x3A with readLen := 4, state := .inFlight }]

/-- Route entries 3, 7 and 9 of section 1.5, with segments 1 and 2 IDLE and segment 3 DISABLED. -/
def routed : State :=
  let s := ((base.setRoute 3 ⟨true, 0x48, ⟨1, 0x4C⟩, #v[.none, .read, .none], false, 20⟩).setRoute 7
    ⟨true, 0x50, ⟨2, 0x50⟩, #v[.none, .readWrite, .none], true, 5⟩).setRoute 9
    ⟨true, 0x30, ⟨3, 0x30⟩, #v[.none, .readWrite, .none], false, 10⟩
  withEngine (withEngine (withEngine s 1 .idle) 2 .idle) 3 .disabled

/-- `n` open READs with tags 0, 1, ... and `m` posted ones after them. -/
def manyReqs (n m : Nat) : List Request :=
  (List.range n).map (fun i => read2 (byte i) 1 0x4C) ++
    (List.range m).map fun i => posted1 (byte (0x40 + i)) 2 0x50

/-- `n` stored results with tags from 0x80. -/
def manyResults (n : Nat) : List Result :=
  (List.range n).map fun i => ⟨byte (0x80 + i), .read, .done, 0, [0x01, 0x02], none⟩

/-- Port 1 as in section 1.5: `n` non-posted and `m` posted open requests, `k` stored results. -/
def crowded (n m k : Nat) : State := withResults (withReqs routed 1 (manyReqs n m)) 1 (manyResults k)

def submit (tag kind mode aliasByte segment target flags readLen holdLimit : Byte) (data : List Byte) : SubmitFields :=
  ⟨tag, kind, mode, aliasByte, segment, target, flags, readLen, holdLimit, data⟩

/-! ### The operand checks refuse ill-formed commands -/

theorem test_wf_submit_too_long :
    (Instr.submit 0 (submit 1 2 0 0x48 0 0 0 0 0 (List.replicate 256 0))).wf = false := by decide +kernel

theorem test_wf_submit_longest :
    (Instr.submit 0 (submit 1 2 0 0x48 0 0 0 0 0 (List.replicate 255 0))).wf = true := by decide +kernel

theorem test_wf_badFrame_known_kind : (Instr.badFrame 0 0x13).wf = false := by decide +kernel

theorem test_wf_badFrame_unknown_kind : (Instr.badFrame 0 0x73).wf = true := by decide +kernel

theorem test_wf_transactionEnd_too_many_acks :
    (Instr.transactionEnd 0 (List.replicate 35 true) []).wf = false := by decide +kernel

theorem test_wf_transactionEnd_too_much_data :
    (Instr.transactionEnd 0 [] (List.replicate 33 0)).wf = false := by decide +kernel

theorem test_wf_lineConflict_too_many_acks : (Instr.lineConflict 0 (List.replicate 35 true)).wf = false := by
  decide +kernel

theorem test_wf_timeout_too_many_acks : (Instr.timeout 0 (List.replicate 35 true)).wf = false := by decide +kernel

/-! ### The frames of chapter 11 -/

/-- The frame kind codes of section 11.2. -/
theorem test_frame_kind_codes :
    FrameKind.all.map FrameKind.code =
      [0x10, 0x11, 0x12, 0x13, 0x14, 0x15, 0x16, 0x20, 0x21, 0x30, 0x31, 0x32, 0x40, 0x41, 0x42, 0x50, 0x51, 0x52,
       0x53, 0x54, 0x60, 0x61, 0x62, 0x63, 0x64, 0x70, 0x71, 0x72] := by decide +kernel

/-- The request and reply lengths of section 11.3. -/
theorem test_frame_lengths :
    FrameKind.all.map (fun k => (k.requestLen, k.replyLen)) =
      [(11, 2), (2, 2), (1, 66), (1, 40), (1, 8), (1, 15), (1, 6), (2, 4), (2, 2), (2, 3), (2, 3), (2, 3), (10, 3),
       (2, 3), (2, 10), (10, 1), (2, 1), (2, 1), (2, 15), (2, 15), (13, 1), (2, 42), (2, 1), (2, 1), (2, 1), (1, 9),
       (1, 1), (1, 1)] := by decide +kernel

/-- The SUBMIT of section 10.6, byte for byte as section 11.3 gives it. -/
theorem test_frame_submit :
    frameCommands 1 ([0x10, 0x07, 0x01, 0x00, 0x2A, 0x00, 0x00, 0x00, 0x02, 0x00, 0x00] ++ List.replicate 3 0x00) =
      [.submit 1 (submit 0x07 0x01 0x00 0x2A 0x00 0x00 0x00 0x02 0x00 [])] := by decide +kernel

/-- Steps 6 and 7 of section 10.6: a FETCH that ends after one reply byte, and a whole one. -/
theorem test_frame_fetch :
    frameCommands 1 (0x13 :: List.replicate 2 0x00) = [.fetch 1, .frameEndsEarly 1] ∧
    frameCommands 1 (0x13 :: List.replicate 41 0x00) = [.fetch 1, .fetchNormalEnd 1] := by decide +kernel

/-- ROUTE SET of section 2.5: index 4, alias 0x40, segment 1, target 0x48. -/
theorem test_frame_routeSet :
    frameCommands 0 ([0x40, 0x04, 0x40, 0x01, 0x48, 0x02, 0x01, 0x00, 0x01, 0x1E] ++ List.replicate 4 0x00) =
      [.routeSet 0 ⟨0x04, 0x40, 0x01, 0x48, 0x02, 0x01, 0x00, 0x01, 0x1E⟩] := by decide +kernel

/-- POLL SET of section 7.7: a period of 20 ms, most-significant byte first, notify set ports 0 and 2. -/
theorem test_frame_pollSet :
    frameCommands 0 ([0x50, 0x02, 0x06, 0x01, 0x00, 0x00, 0x02, 0x00, 0x14, 0x05] ++ List.replicate 2 0x00) =
      [.pollSet 0 ⟨0x02, 0x06, 0x01, 0x00, 0x00, 0x02, 20, 0x05⟩] := by decide +kernel

/-- SEGMENT SET of section 5.9: DEFICIT with quanta 40, 20, 30 and 16. -/
theorem test_frame_segmentSet :
    frameCommands 0 ([0x60, 0x03, 0x00, 0x19, 0x01, 0x00, 0x01, 0x02, 0x03, 40, 20, 30, 16] ++ List.replicate 2 0x00) =
      [.segmentSet 0 ⟨0x03, 0x00, 0x19, 0x01, 0x00, 0x01, 0x02, 0x03, 40, 20, 30, 16⟩] := by decide +kernel

/-- Frames of one and two request bytes. -/
theorem test_frame_short :
    frameCommands 2 ([0x32, 0x00] ++ List.replicate 4 0x00) = [.semBreak 2 0x00] ∧
    frameCommands 0 ([0x72] ++ List.replicate 2 0x00) = [.hubReset 0, .hubResetNormalEnd 0] ∧
    frameCommands 0 ([0x20, 0x01] ++ List.replicate 5 0x00) = [.causes 0 0x01] := by decide +kernel

/-- An unknown kind, an incomplete request part, and a frame without a byte. -/
theorem test_frame_errors :
    frameCommands 0 [0x73, 0x00, 0x00] = [.badFrame 0 0x73] ∧
    frameCommands 0 [0x42] = [.framingError 0] ∧
    frameCommands 0 [0x10, 0x07, 0x01, 0x00, 0x2A, 0x00, 0x00, 0x00, 0x00, 0x00, 0x02, 0xAA] = [.framingError 0] ∧
    frameCommands 0 [] = [.framingError 0] := by decide +kernel

theorem test_no_table_word : decodeTableWord 8 0x10 = none := by decide +kernel

/-! ### Requests: chapters 1 and 3 -/

/-- Section 1.5 step 1: the thirteen open requests become fourteen, the sum becomes 16. -/
theorem test_submit_admits :
    let t := after (.submit 1 (submit 0x21 1 0 0x48 0 0 0 2 0 [])) (crowded 10 3 5)
    t.reply 1 = some [0x00, 0x21] ∧ (t.port 1).reqs.length = 14 ∧
      (t.port 1).results.length + (t.port 1).reservations = 16 ∧
      (t.port 1).reqs.getLast? = some { read2 0x21 1 0x4C with route := some 3 } := by decide +kernel

/-- Section 1.5 steps 2, 4, 6, 7, 8, 9, 14 and 15: the first failing check decides. -/
theorem test_submit_refusals :
    let code (f : SubmitFields) (s : State) := (after (.submit 1 f) s).reply 1
    code (submit 0x22 1 0 0x48 0 0 1 1 0 []) (crowded 11 3 5) = some [0x03, 0x22] ∧
    code (submit 0x23 3 0 0x48 0 0 0 2 0 [1, 2, 3]) (crowded 11 3 5) = some [0x06, 0x23] ∧
    code (submit 0x25 1 0 0x50 0 0 0 1 0 []) (crowded 11 4 5) = some [0x09, 0x25] ∧
    code (submit 0x26 1 1 0 1 0x4C 0 1 0 []) (crowded 11 4 5) = some [0x06, 0x26] ∧
    code (submit 0x27 1 0 0x60 0 0 0 1 0 []) (crowded 11 4 5) = some [0x05, 0x27] ∧
    code (submit 0x28 4 0 0x30 0 0 0 0 0 []) (crowded 11 4 5) = some [0x07, 0x28] ∧
    code (submit 0x2A 2 0 0x50 0 0 1 0 0 [1, 2]) (crowded 11 5 5) = some [0x08, 0x2A] ∧
    code (submit 0x2B 1 0 0x50 0 0 0 0 0 []) (crowded 11 5 5) = some [0x02, 0x2B] := by decide +kernel

/-- Section 4.7 event 9: a waiting HOLD is cancelled and leaves the waiters. -/
theorem test_cancel_waiting :
    let s := (withReqs base 2 [{ hold5 0x30 1 0x52 with state := .waitingHold }]).setHold 0
      (some ⟨⟨1, 0x52⟩, 1, 17, [⟨2, 0x30, 8⟩]⟩)
    let t := after (.cancel 2 0x30) s
    t.reply 2 = some [0x00, 0x30] ∧ t.hold 0 = some ⟨⟨1, 0x52⟩, 1, 17, []⟩ ∧
      (t.port 2).results = [⟨0x30, .hold, .cancelled, 0, [], none⟩] := by decide +kernel

/-- Section 3.9 event 6: an IN_FLIGHT request is left. -/
theorem test_cancel_inFlight : (after (.cancel 1 0x44) sensor).reply 1 = some [0x17, 0x44] := by decide +kernel

/-- Section 3.9 after event 8. -/
theorem test_laneInspect :
    let s := withReqs base 2 [{ read2 4 0 0x20 with state := .inFlight }, { read2 5 2 0x21 with state := .inFlight }]
    (after (.laneInspect 2) s).reply 2 =
      some ([0x00, 0x02, 0x04, 0x00, 0x01, 0x03, 0x05, 0x02, 0x01, 0x03] ++ List.replicate 56 0x00) := by decide +kernel

/-! ### Results, records and attention: chapter 8 -/

/-- Section 11.3's FETCH reply. -/
theorem test_fetch :
    (after (.fetch 1) (withResults base 1 [⟨0x07, .read, .done, 0, [0x12, 0x34], none⟩])).reply 1 =
      some ([0x00, 0x01, 0x07, 0x01, 0x00, 0x00, 0x00, 0x02, 0x12, 0x34] ++ List.replicate 30 0x00) := by decide +kernel

/-- Section 8.8 step 4: the head is removed, the attention line stays low for the record behind it. -/
theorem test_fetchNormalEnd :
    let r : Result := ⟨0x50, .read, .done, 0, [1, 2], none⟩
    let r' : Result := ⟨0x51, .write, .dataNack, 1, [], none⟩
    let t := after (.fetchNormalEnd 1) (withFrame (withResults base 1 [r, r']) 1 .fetch (.fetch r))
    (t.port 1).results = [r'] ∧ t.attnLow 1 = true := by decide +kernel

/-- The posted-fault record of section 2.5, event 1. -/
theorem test_postedFault :
    let s := base.modifyPort 0 fun ps => { ps with postedFault := some ⟨0x11, some 4, ⟨0, 0x48⟩, .routeChanged, 0, 0⟩ }
    (after (.postedFault 0) s).reply 0 = some [0x00, 0x11, 0x04, 0x00, 0x48, 0x06, 0x00, 0x00] := by decide +kernel

/-- A failure entered during the reply keeps the record (R136). -/
theorem test_postedFaultNormalEnd :
    let s := base.modifyPort 0 fun ps => { ps with postedFault := some ⟨0x11, some 4, ⟨0, 0x48⟩, .routeChanged, 0, 0⟩ }
    ((after (.postedFaultNormalEnd 0) (withFrame s 0 .postedFault (.postedFault false))).port 0).postedFault = none ∧
    ((after (.postedFaultNormalEnd 0) (withFrame s 0 .postedFault (.postedFault true))).port 0).postedFault ≠ none := by
  decide +kernel

/-- The hold-end record of section 4.7, event 6. -/
theorem test_holdEnds :
    let s := base.modifyPort 0 fun ps => { ps with holdEnds := [⟨⟨1, 0x52⟩, .expired⟩], lostEnds := 2 }
    (after (.holdEnds 0) s).reply 0 =
      some ([0x00, 0x01, 0x01, 0x52, 0x01] ++ List.replicate 9 0x00 ++ [0x02]) := by decide +kernel

/-- A record added during the reply stays, and so does an end lost during it (R138). -/
theorem test_holdEndsNormalEnd :
    let s := base.modifyPort 0 fun ps =>
      { ps with holdEnds := [⟨⟨1, 0x52⟩, .expired⟩, ⟨⟨2, 0x4A⟩, .segmentOffline⟩], lostEnds := 2 }
    let t := after (.holdEndsNormalEnd 0) (withFrame s 0 .holdEnds (.holdEnds 1 1))
    (t.port 0).holdEnds = [⟨⟨2, 0x4A⟩, .segmentOffline⟩] ∧ (t.port 0).lostEnds = 1 := by decide +kernel

/-- The sets of section 8.8, step 10. -/
theorem test_notices :
    let s := base.modifyPort 1 fun ps => { ps with notices := ⟨0x0010, 0x8, 0, 0⟩ }
    (after (.notices 1) s).reply 1 = some [0x00, 0x00, 0x10, 0x08, 0x00, 0x00] := by decide +kernel

/-- Section 8.8 step 10: segment 3 was added again during the reply and is kept. -/
theorem test_noticesNormalEnd :
    let s := base.modifyPort 1 fun ps => { ps with notices := ⟨0x0010, 0x8, 0, 0⟩ }
    let t := after (.noticesNormalEnd 1) (withFrame s 1 .notices (.notices ⟨0x0010, 0x8, 0, 0⟩ ⟨0, 0x8, 0, 0⟩))
    (t.port 1).notices = ⟨0, 0x8, 0, 0⟩ := by decide +kernel

/-- Section 8.8 step 13. -/
theorem test_causes :
    let s := base.modifyPort 1 fun ps => { ps with framingFlag := true, framingCount := 1, mask := 0x77 }
    let t := after (.causes 1 0x01) s
    t.reply 1 = some [0x00, 0x40, 0x77, 0x01] ∧ s.attnLow 1 = true ∧ t.attnLow 1 = false := by decide +kernel

theorem test_causeMask :
    let t := after (.causeMask 1 0xFF) base
    t.reply 1 = some [0x00, 0x7F] ∧ (t.port 1).mask = 0x7F := by decide +kernel

/-! ### Semaphores: chapter 9 -/

/-- Section 9.5 steps 1 to 3. -/
theorem test_semTake :
    (after (.semTake 0 0) base).reply 0 = some [0x1B, 0x00, 0x00] ∧
    (after (.semTake 1 0) claimed).reply 1 = some [0x12, 0x00, 0x00] ∧
    (after (.semTake 2 0) claimed).reply 2 = some [0x1D, 0x00, 0x00] ∧
    (after (.semTake 2 0) claimed).sem 0 = ⟨some 0, 0b100⟩ := by decide +kernel

theorem test_semGive :
    let t := after (.semGive 0 0) (base.setSem 0 ⟨some 0, 0b100⟩)
    t.reply 0 = some [0x1E, 0x00, 0xFF] ∧ t.sem 0 = ⟨none, 0⟩ ∧ (t.port 2).notices = ⟨0, 0, 1, 0⟩ := by decide +kernel

/-- Section 9.5 step 6. -/
theorem test_semBreak :
    let t := after (.semBreak 2 0) (base.setSem 0 ⟨some 0, 0b100⟩)
    t.reply 2 = some [0x1E, 0x00, 0xFF] ∧ (t.port 0).notices = ⟨0, 0, 0, 1⟩ ∧ (t.port 2).notices = ⟨0, 0, 1, 0⟩ ∧
      t.attnLow 0 = true ∧ t.attnLow 2 = true := by decide +kernel

/-! ### Routes: chapter 2 -/

/-- Section 2.5, before event 1. -/
def beforeSweep : State :=
  let poll : PollEntry := { PollEntry.pinReset with
    config := ⟨4, 0, 0, 0, 1, 500, 0⟩, state := .active, mark := .queued,
    result := ⟨some .done, 41, true, [0x55], 3⟩ }
  let s := ((claimed.setRoute 4 ⟨true, 0x40, ⟨0, 0x48⟩, #v[.readWrite, .read, .none], true, 30⟩).setRoute 5
    ⟨true, 0x41, ⟨0, 0x48⟩, #v[.readWrite, .readWrite, .none], false, 10⟩).setPoll 6 poll
  let s := (s.setDue 0 [6]).setPoll 9 { PollEntry.pinReset with config := ⟨4, 0, 0, 0, 1, 500, 0⟩ }
  let s := withReqs s 0 [{ read2 0x10 0 0x48 with route := some 4, state := .inFlight },
    { posted1 0x11 0 0x48 with route := some 4 }, { read2 0x12 0 0x48 with route := some 5, readLen := 1 }]
  withEngine (withReqs s 1 [{ read2 0x30 0 0x48 with route := some 4 }, { read2 0x31 0 0x48 with route := some 4 }]) 0
    (carrying (.port 0) ⟨0x48, [], 2⟩)

/-- Section 2.5, event 1. -/
theorem test_routeSet_sweeps :
    let t := after (.routeSet 0 ⟨0x04, 0x40, 0x01, 0x48, 0x02, 0x01, 0x00, 0x01, 0x1E⟩) beforeSweep
    t.reply 0 = some [0x00, 0x03, 0x01] ∧ (t.port 0).reqs.map (·.tag) = [0x10, 0x12] ∧ (t.port 1).reqs = [] ∧
      (t.port 0).postedFault = some ⟨0x11, some 4, ⟨0, 0x48⟩, .routeChanged, 0, 0⟩ ∧
      (t.port 1).results.map (·.tag) = [0x30, 0x31] ∧ t.dueOf 0 = [] ∧ (t.poll 6).state = .suspended ∧
      (t.poll 6).result = ⟨some .routeChanged, 42, true, [0x55], 3⟩ ∧ t.poll 9 = beforeSweep.poll 9 ∧
      t.attnLow 0 = true ∧ t.attnLow 1 = true := by decide +kernel

theorem test_routeSet_refusals :
    (after (.routeSet 2 ⟨5, 0x30, 0, 0x20, 0, 0, 0, 0, 10⟩) claimed).reply 2 = some [0x13, 0, 0] ∧
    (after (.routeSet 0 ⟨32, 0x30, 0, 0x20, 0, 0, 0, 0, 10⟩) claimed).reply 0 = some [0x14, 0, 0] ∧
    (after (.routeSet 0 ⟨5, 0x30, 4, 0x20, 0, 0, 0, 0, 10⟩) claimed).reply 0 = some [0x15, 0, 0] ∧
    (after (.routeSet 0 ⟨6, 0x41, 0, 0x20, 0, 0, 0, 0, 10⟩) beforeSweep).reply 0 = some [0x16, 0, 0] := by decide +kernel

theorem test_routeClear :
    let t := after (.routeClear 0 0x05) beforeSweep
    t.reply 0 = some [0x00, 0x01, 0x00] ∧ (t.route 5).valid = false ∧ (t.route 5).aliasAddr = 0x41 ∧
      (t.port 0).results.map (·.tag) = [0x12] := by decide +kernel

theorem test_routeGet :
    (after (.routeGet 1 0x04) beforeSweep).reply 1 = some [0x00, 1, 0x40, 0, 0x48, 2, 1, 0, 1, 30] := by decide +kernel

/-! ### Polls: chapter 7 -/

/-- Section 7.7 before the POLL SET: route entry 6, segment 1 IDLE. -/
def temperature : State :=
  withEngine (claimed.setRoute 6 ⟨true, 0x48, ⟨1, 0x48⟩, #v[.readWrite, .readWrite, .none], false, 10⟩) 1 .idle

/-- Poll entry 2 of section 7.7. -/
def entry2 : PollEntry :=
  ⟨⟨6, 1, 0, 0, 2, 20, 0b101⟩, .active, 1, .none, false, 0, ⟨some .done, 2, true, [0x19, 0x40], 19⟩⟩

theorem test_pollSet :
    let t := after (.pollSet 0 ⟨0x02, 0x06, 0x01, 0x00, 0x99, 0x02, 20, 0x05⟩) temperature
    t.reply 0 = some [0x00] ∧
      t.poll 2 = ⟨⟨6, 1, 0, 0, 2, 20, 0b101⟩, .off, 20, .none, false, 0, ⟨none, 0, false, [0, 0], 65535⟩⟩ := by
  decide +kernel

theorem test_pollStart :
    let t := after (.pollStart 0 0x02) (temperature.setPoll 2 { entry2 with state := .suspended })
    t.reply 0 = some [0x00] ∧ (t.poll 2).state = .active ∧ (t.poll 2).countdown = 20 := by decide +kernel

theorem test_pollStop :
    let t := after (.pollStop 0 0x02) ((temperature.setPoll 2 { entry2 with mark := .queued }).setDue 1 [3, 2])
    t.reply 0 = some [0x00] ∧ (t.poll 2).state = .off ∧ (t.poll 2).mark = .none ∧ t.dueOf 1 = [3] := by decide +kernel

/-- The POLL GET of section 7.7 at t = 120. -/
theorem test_pollGet :
    (after (.pollGet 1 0x02) (temperature.setPoll 2 { entry2 with countdown := 20, overrun := 1 })).reply 1 =
      some [0, 6, 1, 0, 0, 2, 0, 20, 5, 1, 0, 20, 0, 0, 1] := by decide +kernel

/-- The POLL READ of section 7.7 at t = 70. -/
theorem test_pollRead :
    (after (.pollRead 1 0x02) (temperature.setPoll 2 { entry2 with result := ⟨some .done, 2, true, [0x19, 0x40], 30⟩ })).reply 1 =
      some [0, 0, 2, 1, 0, 30, 2, 0x19, 0x40, 0, 0, 0, 0, 0, 0] := by decide +kernel

/-- Section 7.7 t = 60 and t = 80: due, and due while queued. -/
theorem test_pollCountdown :
    let t := after (.pollCountdown 2) (temperature.setPoll 2 entry2)
    t.dueOf 1 = [2] ∧ (t.poll 2).mark = .queued ∧ (t.poll 2).countdown = 20 ∧
      ((after (.pollCountdown 2) (temperature.setPoll 2 { entry2 with mark := .queued })).poll 2).overrun = 1 := by
  decide +kernel

/-- A segment that is offline: the instance completes SEGMENT_OFFLINE at once (section 6.9, time 160). -/
theorem test_pollDue :
    let t := after (.pollDue 2) (withEngine (temperature.setPoll 2 entry2) 1 .faulted)
    t.dueOf 1 = [] ∧ (t.poll 2).result = ⟨some .segmentOffline, 3, true, [0x19, 0x40], 19⟩ := by decide +kernel

theorem test_ageIncrease :
    let t := after .ageIncrease (temperature.setPoll 2 entry2)
    (t.poll 2).result.age = 20 ∧ (t.poll 3).result.age = 65535 := by decide +kernel

/-! ### Segment frames: chapters 5 and 6 -/

theorem test_segmentSet :
    let t := after (.segmentSet 0 ⟨0x03, 0x01, 0x19, 0x01, 0, 1, 2, 3, 40, 20, 30, 16⟩)
      (claimed.setArbiter 3 { Arbiter.pinReset with quanta := #v[8, 8, 8, 8] })
    t.reply 0 = some [0x00] ∧ t.arbiter 3 = ⟨.deficit, #v[0, 1, 2, 3], #v[40, 20, 30, 16], #v[0, 0, 0, 0], 0⟩ ∧
      (t.engine 3).speed = .khz400 ∧ (t.engine 3).limit = 25 := by decide +kernel

/-- The segment after pin reset, as R87 and R111 give it. -/
theorem test_segmentGet :
    (after (.segmentGet 1 0x00) base).reply 1 =
      some ([0x00, 0x00, 25, 0x00, 0, 1, 2, 3, 64, 64, 64, 64, 0x02, 0x00, 0xFF, 0, 0, 0, 0] ++ List.replicate 22 0x00 ++
        [0x00]) := by decide +kernel

theorem test_segmentDisable :
    let t := after (.segmentDisable 0 0x02) { sensor with sems := claimed.sems }
    t.reply 0 = some [0x00] ∧ (t.engine 2).disablePending = true ∧ t.online 2 = false ∧ t.offline 2 = false := by
  decide +kernel

/-- Section 6.9 time 500. -/
theorem test_segmentRestore :
    let t := after (.segmentRestore 0 0x02) (withEngine claimed 2 .faulted)
    t.reply 0 = some [0x00] ∧ (t.engine 2).state = .checking 0 0 ∧ (t.port 1).notices.seg = 0b0100 := by decide +kernel

theorem test_statsClear :
    let s := claimed.setEngine 2 { Engine.pinReset with stats := ⟨121, 1, 0, 1, 0, 3, 2⟩, faultCount := 2 }
    let t := after (.statsClear 0 0x02) s
    t.reply 0 = some [0x00] ∧ (t.engine 2).stats = ⟨0, 0, 0, 0, 0, 0, 0⟩ ∧ (t.engine 2).faultCount = 2 := by decide +kernel

/-! ### Arbitration and holds: chapters 4 and 5 -/

/-- Section 5.9: segment 3 in DEFICIT mode with all four candidates. -/
def sixGrants : State :=
  let s := withEngine (base.setArbiter 3 ⟨.deficit, #v[0, 1, 2, 3], #v[40, 20, 30, 16], #v[0, 0, 0, 0], 0⟩) 3 .idle
  let s := withReqs s 0 [{ read2 1 3 0x50 with readLen := 16 }]
  let s := withReqs s 1
    [{ read2 2 3 0x51 with kind := .writeRead, writeData := [1, 2], readLen := 4 }, hold5 3 3 0x2C]
  let s := withReqs s 2 [{ read2 4 3 0x2C with readLen := 4 }]
  ((s.setPoll 4 { entry2 with mark := .queued }).setDue 3 [4]).setRoute 6
    ⟨true, 0x60, ⟨3, 0x60⟩, #v[.none, .none, .none], false, 10⟩

/-- Section 5.9, grant 1. -/
theorem test_arbiterDecision_deficit :
    let t := after (.arbiterDecision 3) sixGrants
    t.arbiter 3 = ⟨.deficit, #v[0, 1, 2, 3], #v[40, 20, 30, 16], #v[0, 13, 0, 0], 1⟩ ∧
      (t.port 1).reqs.map (·.state) = [.inFlight, .queued] ∧ (t.engine 3).stats.started = 1 ∧
      (t.engine 3).state = carrying (.port 1) ⟨0x51, [1, 2], 4⟩ := by decide +kernel

/-- Section 5.9, grant 6: a deficit kept, two contenders passed, port 2 wins. -/
theorem test_arbiterDecision_rotates :
    let a : Arbiter := ⟨.deficit, #v[0, 1, 2, 3], #v[40, 20, 30, 16], #v[23, 0, 0, 0], 0⟩
    let s := withReqs (withReqs ((sixGrants.setArbiter 3 a).setDue 3 []) 1 []) 0
      [{ read2 1 3 0x50 with kind := .write, writeData := List.replicate 32 0, readLen := 0 }]
    (after (.arbiterDecision 3) s).arbiter 3 = { a with deficits := #v[23, 0, 25, 0], current := 2 } := by decide +kernel

/-- Section 4.7 events 1 and 3. -/
theorem test_holdSettlement :
    let s := withReqs (withReqs base 0 [hold5 1 1 0x52]) 2 [{ hold5 0x30 1 0x52 with holdLimit := some 8 }]
    let t := after (.holdSettlement 0 1) s
    t.hold 0 = some ⟨⟨1, 0x52⟩, 0, 5, []⟩ ∧ (t.port 0).results = [⟨1, .hold, .holdGranted, 0, [], some 5⟩] ∧
      (after (.holdSettlement 2 1) t).hold 0 = some ⟨⟨1, 0x52⟩, 0, 5, [⟨2, 0x30, 8⟩]⟩ := by decide +kernel

/-- Section 4.7 events 10 and 12. -/
theorem test_releaseSettlement :
    let s := withReqs (withReqs base 1 [release 0x22 1 0x52]) 0 [release 4 1 0x52]
    let t := after (.releaseSettlement 1 1) (s.setHold 0 (some ⟨⟨1, 0x52⟩, 1, 17, []⟩))
    t.hold 0 = none ∧ (t.port 1).results = [⟨0x22, .release, .released, 0, [], none⟩] ∧
      ((after (.releaseSettlement 0 1) t).port 0).results = [⟨4, .release, .notHolder, 0, [], none⟩] := by decide +kernel

theorem test_holdDecrease :
    (after (.holdDecrease 0) (base.setHold 0 (some ⟨⟨1, 0x52⟩, 0, 5, []⟩))).hold 0 = some ⟨⟨1, 0x52⟩, 0, 4, []⟩ := by
  decide +kernel

/-- Section 4.7 event 6: the fifth mark. -/
theorem test_holdExpiry :
    let s := (withReqs base 1 [{ hold5 0x20 1 0x52 with holdLimit := some 20, state := .waitingHold }]).setHold 0
      (some ⟨⟨1, 0x52⟩, 0, 1, [⟨1, 0x20, 20⟩, ⟨2, 0x30, 8⟩]⟩)
    let t := after (.holdExpiry 0) s
    t.hold 0 = some ⟨⟨1, 0x52⟩, 1, 20, [⟨2, 0x30, 8⟩]⟩ ∧ (t.port 0).holdEnds = [⟨⟨1, 0x52⟩, .expired⟩] ∧
      (t.port 1).results = [⟨0x20, .hold, .holdGranted, 0, [], some 20⟩] := by decide +kernel

/-! ### Transactions, checking and recovery: chapter 6 -/

/-- A READ that is acknowledged: DONE with its bytes, the engine returns to IDLE. -/
theorem test_transactionEnd :
    let t := after (.transactionEnd 2 [true] [1, 2, 3, 4]) sensor
    (t.port 1).results = [⟨0x44, .read, .done, 0, [1, 2, 3, 4], none⟩] ∧ (t.engine 2).state = .idle := by decide +kernel

/-- Section 3.9 event 4: the first of three bytes acknowledged and not the second. -/
theorem test_transactionEnd_dataNack :
    let s := withReqs (withEngine base 1 (carrying (.port 2) ⟨0x20, [1, 2, 3], 0⟩)) 2
      [{ posted1 2 1 0x20 with writeData := [1, 2, 3], state := .inFlight }]
    let t := after (.transactionEnd 1 [true, true, false] []) s
    (t.port 2).postedFault = some ⟨2, none, ⟨1, 0x20⟩, .dataNack, 1, 0⟩ ∧ (t.engine 1).stats.dataNacks = 1 := by
  decide +kernel

theorem test_lineConflict :
    let t := after (.lineConflict 2 [true]) sensor
    (t.port 1).results = [⟨0x44, .read, .lineConflict, 0, [], none⟩] ∧ (t.engine 2).state = .checking 0 0 ∧
      (t.engine 2).stats.lineConflicts = 1 := by decide +kernel

/-- Section 6.9 time 25. -/
theorem test_timeout :
    let t := after (.timeout 2 [true]) sensor
    (t.port 1).results = [⟨0x44, .read, .timeout, 0, [], none⟩] ∧
      (t.engine 2).state = .recovering .waitScl 0 false ∧ (t.engine 2).tries = 1 ∧
      (t.engine 2).stats = ⟨0, 0, 0, 1, 0, 1, 0⟩ := by decide +kernel

theorem test_cutEnd :
    ((after (.cutEnd 2) (withEngine base 2 (carrying (.cut .portReset) ⟨0x3A, [], 4⟩))).engine 2).state = .idle ∧
    ((after (.cutEnd 2) (withEngine base 2 (carrying (.cut .hubReset) ⟨0x3A, [], 4⟩))).engine 2).state =
      .checking 0 0 := by decide +kernel

theorem test_lineLowInIdle :
    ((after (.lineLowInIdle 2) (withEngine base 2 .idle)).engine 2).state = .checking 0 0 := by decide +kernel

theorem test_freeWindowComplete : ((after (.freeWindowComplete 2) base).engine 2).state = .idle := by decide +kernel

theorem test_freeWindowRestart :
    ((after (.freeWindowRestart 2) (withEngine base 2 (.checking 1 49))).engine 2).state = .checking 0 49 := by
  decide +kernel

/-- Section 6.9 time 77. -/
theorem test_limitWindowEnd :
    let t := after (.limitWindowEnd 2) (base.setEngine 2 { Engine.pinReset with tries := 1, stats := ⟨121, 0, 0, 1, 0, 1, 0⟩ })
    (t.engine 2).state = .recovering .waitScl 0 false ∧ (t.engine 2).tries = 2 ∧
      (t.engine 2).stats = ⟨121, 0, 0, 1, 0, 2, 0⟩ := by decide +kernel

theorem test_recoverySclHigh :
    let s := withEngine base 2 (.recovering .waitScl 2 false)
    ((after (.recoverySclHigh 2 false) s).engine 2).state = .recovering (.pulse 1) 0 false ∧
    ((after (.recoverySclHigh 2 true) s).engine 2).state = .recovering .stop 0 false := by decide +kernel

theorem test_recoverySclTimeout :
    let t := after (.recoverySclTimeout 2) (withEngine base 2 (.recovering .waitScl 10 false))
    (t.engine 2).state = .faulted ∧ (t.engine 2).faultReason = .sclStuck := by decide +kernel

/-- Section 6.9 time 77.1: the ninth pulse fails, and everything on the segment is drained. -/
theorem test_recoveryPulseEnd :
    let s := withEngine base 2 (.recovering (.pulse 9) 0 false)
    let s := (withReqs s 0 [read2 0x10 2 0x4A]).setHold 3 (some ⟨⟨2, 0x4A⟩, 2, 9, []⟩)
    let s := (s.setPoll 5 { entry2 with mark := .queued }).setDue 2 [5]
    let t := after (.recoveryPulseEnd 2 false) s
    (t.engine 2).state = .faulted ∧ (t.engine 2).faultReason = .sdaStuck ∧ (t.engine 2).faultCount = 1 ∧
      (t.port 0).results = [⟨0x10, .read, .segmentOffline, 0, [], none⟩] ∧ t.hold 3 = none ∧
      (t.port 2).holdEnds = [⟨⟨2, 0x4A⟩, .segmentOffline⟩] ∧ t.dueOf 2 = [] ∧
      (t.poll 5).result = ⟨some .segmentOffline, 3, true, [0x19, 0x40], 19⟩ ∧
      (∀ p, (t.port p).notices.seg = 0b0100) := by decide +kernel

theorem test_recoveryStopEnd :
    ((after (.recoveryStopEnd 2) (withEngine base 2 (.recovering .stop 0 false))).engine 2).state = .checking 0 0 := by
  decide +kernel

/-! ### Ports and resets: chapter 10 -/

theorem test_hubInfo :
    (after (.hubInfo 1) claimed).reply 1 = some [0x00, 0x34, 0x04, 0x01, 0x01, 0x01, 0x00, 0x01, 0x00] := by
  decide +kernel

theorem test_portReset : (after (.portReset 1) sensor).reply 1 = some [0x00] := by decide +kernel

/-- A PORT RESET cuts the port's transaction and removes its requests without an outcome (R49, R110). -/
theorem test_portResetNormalEnd :
    let t := after (.portResetNormalEnd 1) (withFrame sensor 1 .portReset .none)
    (t.port 1).reqs = [] ∧ (t.port 1).results = [] ∧ (t.port 1).inReset = false ∧
      carrierOf t 2 = some (.cut .portReset) := by decide +kernel

/-- The table of R109. -/
theorem test_cutShort :
    [[.start, .address 0xA0, .write 1, .stop], [.address 0xA0, .write 1, .stop], [.write 1, .write 2, .stop],
      [.restart, .address 0xA1, .read false, .stop], [.read true, .read false, .stop], [.stop]].map cutShort =
    [[.start, .address 0xA0, .stop], [.address 0xA0, .stop], [.write 1, .stop],
      [.restart, .address 0xA1, .stop], [.read false, .stop], [.stop]] := by decide +kernel

/-- Port 1 waits on two entries that port 0 holds, and asked for that of the higher number first: its HOLD_GRANTED
records stand in its admission order (R43, R131). -/
theorem test_portResetNormalEnd_grants :
    let s := (base.setHold 0 (some ⟨⟨1, 0x52⟩, 0, 9, [⟨1, 0x21, 5⟩]⟩)).setHold 3 (some ⟨⟨2, 0x3A⟩, 0, 9, [⟨1, 0x20, 5⟩]⟩)
    let s := withReqs s 1
      [{ hold5 0x20 2 0x3A with state := .waitingHold }, { hold5 0x21 1 0x52 with state := .waitingHold }]
    let t := after (.portResetNormalEnd 0) (withFrame s 0 .portReset .none)
    (t.port 1).reqs = [] ∧ (t.port 1).results.map (·.tag) = [0x20, 0x21] ∧
      t.hold 0 = some ⟨⟨1, 0x52⟩, 1, 5, []⟩ ∧ t.hold 3 = some ⟨⟨2, 0x3A⟩, 1, 5, []⟩ := by decide +kernel

/-- MISOx through a HUB INFO of port 1, and with CSxN high (R154). -/
theorem test_miso :
    let t := after (.hubInfo 1) claimed
    [none, some [], some [0x70], some [0x70, 0], some [0x70, 0, 0], some [0x10, 0]].map (t.misoByte 1) =
      [none, some 0, some 0, some 0, some 0x34, some 0] := by decide +kernel

theorem test_hubReset :
    (after (.hubReset 1) claimed).reply 1 = some [0x12] ∧ (after (.hubReset 2) claimed).reply 2 = some [0x13] ∧
    (after (.hubReset 0) claimed).reply 0 = some [0x00] := by decide +kernel

theorem test_hubResetNormalEnd :
    let t := after (.hubResetNormalEnd 0) (withFrame { sensor with sems := claimed.sems } 0 .hubReset .hubReset)
    (t.port 1).reqs = [] ∧ t.sem 0 = ⟨none, 0⟩ ∧ carrierOf t 2 = some (.cut .hubReset) := by decide +kernel

theorem test_badFrame :
    let t := after (.badFrame 1 0x73) base
    t.reply 1 = some [0x11] ∧ (t.port 1).framingCount = 1 ∧ (t.port 1).framingFlag = true ∧ t.attnLow 1 = false := by
  decide +kernel

theorem test_framingError :
    let s := base.modifyPort 1 fun ps => { ps with framingCount := 255 }
    ((after (.framingError 1) s).port 1).framingCount = 255 ∧
      ((after (.framingError 1) base).port 1).framingCount = 1 := by decide +kernel

theorem test_frameEndsEarly :
    let t := after (.frameEndsEarly 1) (withFrame base 1 .fetch .none)
    (t.port 1).frame = none ∧ (t.port 1).framingCount = 0 := by decide +kernel

/-- Section 9.5 step 10. -/
theorem test_prstxnFall :
    let s := (base.setSem 0 ⟨some 2, 0b001⟩).modifyPort 0 fun ps => { ps with notices := ⟨0, 0, 0, 1⟩ }
    let t := after (.prstxnFall 2) s
    t.sem 0 = ⟨none, 0⟩ ∧ (t.port 0).notices = ⟨0, 0, 1, 1⟩ ∧ (t.port 2).inReset = true ∧ t.attnLow 2 = false := by
  decide +kernel

theorem test_prstxnRise :
    let s := base.modifyPort 2 fun ps => { ps with inReset := true }
    ((after (.prstxnRise 2) s).port 2).inReset = false := by decide +kernel

theorem test_resetnFall :
    let t := after .resetnFall (withFrame base 1 .fetch .none)
    t.held = true ∧ (t.port 1).frame = none ∧ t.running 1 = false := by decide +kernel

theorem test_resetnRise :
    let t := after (.resetnRise false true true) { sensor with held := true }
    t.held = false ∧ (t.port 0).role = .member ∧ (t.port 1).role = .supervisor ∧ (t.port 1).reqs = [] ∧
      (t.engine 2).state = .checking 0 0 := by decide +kernel

/-! ### The hypotheses of each obligation can be met

`witness_<obligation>` shows, clause by clause, a state and operands that meet what the clause asks. -/

/-- Port 1 in reset, RESETN high. -/
def inReset1 : State := base.modifyPort 1 fun ps => { ps with inReset := true }

/-- A port's lane head is a HOLD that can settle. -/
def settling : State := withReqs base 0 [hold5 1 1 0x52]

/-- After a reset nothing is due at once. -/
theorem base_nothingDue : ∀ c, ¬DueNow base c := by
  have a : ∀ p g, (base.port p).readyHead g = none := by decide +kernel
  have b : ∀ g, base.winner g = none := by decide +kernel
  intro c h
  cases c <;> simp [DueNow, a, b] at h

theorem witness_IdleStepFillsTheQueue :
    ({ base with held := true }.pending = [] ∧ { base with held := true }.held = true) ∧
    (settling.pending = [] ∧ settling.held = false ∧ ∃ c, DueNow settling c) ∧
    (base.pending = [] ∧ base.held = false ∧ ∀ c, ¬DueNow base c) :=
  ⟨by decide +kernel, ⟨by decide +kernel, by decide +kernel, .holdSettlement 0 1, hold5 1 1 0x52, by decide +kernel⟩,
    by decide +kernel, by decide +kernel, base_nothingDue⟩

theorem witness_EveryCommandGoesOnAndResetTakesNone :
    ({ base with held := true }.held = true ∧ (Instr.submit 0 (submit 0 0 0 0 0 0 0 0 0 [])).movesPin = false ∧
      (Instr.freeWindowRestart 3).movesPin = false) ∧
    ((Instr.submit 1 (submit 0 0 0 0 0 0 0 0 0 [])).framePort? = some 1 ∧ (Instr.framingError 1).framePort? = some 1 ∧
      (inReset1.port 1).inReset = true) := by decide +kernel

theorem witness_PortResetEffectsOnEveryBlock :
    ((sensor.engine 2).state = carrying (.port 1) ⟨0x3A, [], 4⟩ ∧
      AheadSound ⟨.port 1, ⟨0x3A, [], 4⟩, (⟨0x3A, [], 4⟩ : Work).elements, .khz100, 25, 0, 0⟩) ∧
    (sensor.engine 0).state = .checking 0 0 := ⟨⟨by decide +kernel, rfl⟩, by decide +kernel⟩

theorem witness_ResetFramesAndPinsOfAPort :
    ((withFrame sensor 1 .portReset .none).running 1 = true ∧
      ((withFrame sensor 1 .portReset .none).port 1).frame = some ⟨some .portReset, 1, [0x00], .none⟩) ∧
    sensor.running 1 = true ∧ inReset1.running 1 = false ∧ (inReset1.port 1).inReset = true ∧
    (base.port 1).inReset = false ∧ (base.running 1 = true ∧ (base.port 1).role = .member) ∧
    (claimed.running 2 = true ∧ (claimed.port 2).role = .supervisor ∧ (claimed.sem 0).owner ≠ some 2) ∧
    (claimed.running 0 = true ∧ (claimed.port 0).role = .supervisor ∧ (claimed.sem 0).owner = some 0) := by
  decide +kernel

theorem witness_HubResetEffectsOnEveryBlock :
    ((withFrame claimed 0 .hubReset .hubReset).running 0 = true ∧
      ((withFrame claimed 0 .hubReset .hubReset).port 0).frame = some ⟨some .hubReset, 1, [0x00], .hubReset⟩) ∧
    ((withFrame claimed 1 .hubReset .none).running 1 = true ∧
      ((withFrame claimed 1 .hubReset .none).port 1).frame = some ⟨some .hubReset, 1, [0x00], .none⟩) := by
  decide +kernel

theorem witness_FramesAreCutAsTheirBytesSay :
    (FrameKind.ofCode 0x73 = none ∧ FrameKind.ofCode 0x00 = none) ∧
    (([] : List Byte).length + 1 < FrameKind.cancel.requestLen ∧
      (List.replicate 11 (0 : Byte)).length + 1 < FrameKind.segmentSet.requestLen) ∧
    ((List.replicate 9 (0 : Byte)).length = 9 ∧ (List.replicate 254 (0 : Byte)).length < (0xFF : Byte).toNat) ∧
    (FrameKind.fetch ≠ .submit ∧ ([] : List Byte).length + 1 = FrameKind.fetch.requestLen) ∧
    ((List.replicate 9 (0 : Byte)).length = 9 ∧ (List.replicate 255 (0 : Byte)).length = (0xFF : Byte).toNat) := by
  decide +kernel

theorem witness_FrameBytesRoundTrip :
    let c : Instr := .submit 2 (submit 0xFF 0xFF 0xFF 0xFF 0xFF 0xFF 0xFF 0xFF 0xFF (List.replicate 255 0xFF))
    c.wf = true ∧ c.port? = some 2 ∧ (c.requestBytes.map List.length) = some 266 ∧
      1 + FrameKind.submit.replyLen ≤ (List.replicate 3 (0 : Byte)).length := by decide +kernel

theorem witness_FramingErrorsAreCounted :
    base.running 0 = true ∧ base.running 1 = true ∧ base.running 2 = true := by decide +kernel

theorem witness_HubInfoReports :
    base.running 0 = true ∧ base.running 1 = true ∧ base.running 2 = true := by decide +kernel

theorem witness_ReplyLengthsAreFixed :
    (Instr.laneInspect 1).requestBytes = some [0x12] ∧ [(0x12 : Byte)].head? = some FrameKind.laneInspect.code ∧
      (Instr.laneInspect 1).port? = some 1 ∧ base.running 1 = true := by decide +kernel

/-- Each code, with the request that fails that check first. -/
theorem witness_SubmitIsRefusedByTheFirstFailingCheck :
    let code (f : SubmitFields) (n m k : Nat) := (crowded n m k).submitCode 1 f
    (crowded 1 0 0).running 1 = true ∧
    code (submit 0x20 0 0 0x48 0 0 0 1 0 []) 1 0 0 = some .badKind ∧
    code (submit 0x20 7 0 0x48 0 0 0 1 0 []) 1 0 0 = some .badKind ∧
    code (submit 0x20 1 0 0x48 0 0 0 33 0 []) 1 0 0 = some .badLength ∧
    code (submit 0x20 1 0 0x48 0 0 0 0 0 []) 1 0 0 = some .badLength ∧
    code (submit 0x20 1 0 0x48 0 0 1 32 0 []) 1 0 0 = some .badFlags ∧
    code (submit 0x20 5 0 0x48 0 0 4 0 0 []) 1 0 0 = some .badFlags ∧
    code (submit 0x00 1 0 0x48 0 0 0 1 0 []) 1 0 0 = some .tagInUse ∧
    code (submit 0x80 1 0 0x48 0 0 0 1 0 []) 1 0 1 = some .tagInUse ∧
    code (submit 0x20 1 1 0x48 0 0x4C 0 1 0 []) 1 0 0 = some .notPermitted ∧
    code (submit 0x20 1 2 0x48 0 0 0 1 0 []) 1 0 0 = some .noRoute ∧
    code (submit 0x20 3 0 0x48 0 0 0 1 0 [1, 2, 3]) 1 0 0 = some .notPermitted ∧
    base.submitCode 0 (submit 0x20 1 1 0 4 0x4C 0 1 0 []) = some .noRoute ∧
    base.submitCode 0 (submit 0x20 1 1 0 0 0x78 0 1 0 []) = some .noRoute ∧
    code (submit 0x20 4 0 0x30 0 0 0 0 0 []) 1 0 0 = some .segmentOffline ∧
    code (submit 0x20 2 0 0x50 0 0 1 0 0 [1]) 0 16 0 = some .queueFull ∧
    code (submit 0x20 1 0 0x50 0 0 0 1 0 []) 11 0 5 = some .resultSpace := by decide +kernel

/-- The fullest ports that still take a request. -/
theorem witness_SubmitAdmitsTheRequest :
    (crowded 10 3 5).running 1 = true ∧
    (crowded 10 5 5).submitCode 1 (submit 0x20 1 0 0x48 0 0 0 32 0 []) = none ∧
    (crowded 11 4 5).submitCode 1 (submit 0x20 2 0 0x50 0 0 1 0 0 [1]) = none ∧
    (crowded 1 0 0).submitCode 1 (submit 0x20 5 0 0x50 0 0 0 0 0 []) = none ∧
    base.submitCode 0 (submit 0x20 4 1 0 3 0x77 0 0 0 []) = none := by decide +kernel

theorem witness_CancelByRequestState :
    let waiting := { hold5 0x30 1 0x52 with state := .waitingHold }
    (base.running 1 = true ∧ ∀ r ∈ (base.port 1).reqs, r.tag ≠ 0x44) ∧
    (sensor.port 1).reqs.find? (fun x => x.tag == 0x44) =
      some { read2 0x44 2 0x3A with readLen := 4, state := .inFlight } ∧
    ((withReqs base 1 [read2 7 0 0x20]).port 1).reqs.find? (fun x => x.tag == 7) = some (read2 7 0 0x20) ∧
    ((withReqs base 1 [waiting]).port 1).reqs.find? (fun x => x.tag == 0x30) = some waiting := by decide +kernel

theorem witness_LaneInspectListsOpenRequests :
    (base.running 1 = true ∧ (base.port 1).reqs.length ≤ 16) ∧
    ((crowded 11 5 5).running 1 = true ∧ ((crowded 11 5 5).port 1).reqs.length = 16) := by decide +kernel

theorem witness_CompletionGoesToTheResultStore :
    let fault : PostedFault := ⟨0x11, some 4, ⟨0, 0x48⟩, .routeChanged, 0, 255⟩
    (inReset1.port 1).inReset = true ∧ (base.port 0).inReset = false ∧ (read2 7 0 0x20).posted = false ∧ (posted1 7 0 0x20).posted = true ∧
      (base.port 0).postedFault = none ∧ { base.port 0 with postedFault := some fault }.postedFault = some fault := by
  decide +kernel

theorem witness_FetchReportsThenRemoves :
    let r : Result := ⟨0x50, .read, .done, 0, List.replicate 32 1, none⟩
    (base.running 1 = true ∧ (base.port 1).results = []) ∧
    ((withResults base 1 [r]).running 1 = true ∧ ((withResults base 1 [r]).port 1).results = [r] ∧
      r.readData.length = 32) ∧
    ((withFrame base 1 .fetch (.fetch r)).running 1 = true ∧
      ((withFrame base 1 .fetch (.fetch r)).port 1).frame = some ⟨some .fetch, 1, [0x00], .fetch r⟩) ∧
    ((withFrame base 1 .fetch .none).port 1).frame = some ⟨some .fetch, 1, [0x00], .none⟩ := by decide +kernel

theorem witness_PostedFaultReportsThenRemoves :
    let fault : PostedFault := ⟨0x11, some 4, ⟨0, 0x48⟩, .routeChanged, 0, 255⟩
    let s := base.modifyPort 0 fun ps => { ps with postedFault := some fault }
    (base.running 0 = true ∧ (base.port 0).postedFault = none) ∧
    (s.running 0 = true ∧ (s.port 0).postedFault = some fault) ∧
    ((withFrame s 0 .postedFault (.postedFault false)).running 0 = true ∧
      ((withFrame s 0 .postedFault (.postedFault false)).port 0).frame =
        some ⟨some .postedFault, 1, [0x00], .postedFault false⟩) ∧
    ((withFrame s 0 .postedFault (.postedFault true)).port 0).frame =
      some ⟨some .postedFault, 1, [0x00], .postedFault true⟩ := by decide +kernel

theorem witness_HoldEndsReportsThenRemoves :
    let four : State := base.modifyPort 0 fun ps =>
      { ps with holdEnds := List.replicate 4 ⟨⟨1, 0x52⟩, .expired⟩, lostEnds := 255 }
    (base.running 0 = true ∧ (base.port 0).holdEnds.length < 4) ∧
    (four.running 0 = true ∧ (four.port 0).holdEnds.length = 4 ∧ (four.port 0).inReset = false) ∧
    ((withFrame four 0 .holdEnds (.holdEnds 4 0)).running 0 = true ∧
      ((withFrame four 0 .holdEnds (.holdEnds 4 0)).port 0).frame =
        some ⟨some .holdEnds, 1, [0x00], .holdEnds 4 0⟩) ∧
    ((withFrame base 0 .holdEnds .none).running 0 = true ∧
      ((withFrame base 0 .holdEnds .none).port 0).frame = some ⟨some .holdEnds, 1, [0x00], .none⟩) := by decide +kernel

theorem witness_NoticesReportThenRemove :
    let s := withFrame base 1 .notices (.notices ⟨0x0010, 0x8, 0, 0⟩ ⟨0, 0x8, 0, 0⟩)
    base.running 1 = true ∧
    (s.running 1 = true ∧ (s.port 1).inReset = false ∧
      (s.port 1).frame = some ⟨some .notices, 1, [0x00], .notices ⟨0x0010, 0x8, 0, 0⟩ ⟨0, 0x8, 0, 0⟩⟩) ∧
    ((withFrame base 1 .notices .none).running 1 = true ∧
      ((withFrame base 1 .notices .none).port 1).frame = some ⟨some .notices, 1, [0x00], .none⟩) ∧
    (inReset1.port 1).inReset = true := by decide +kernel

theorem witness_CausesAndMaskFrames :
    base.running 1 = true ∧ (0xFE : Byte).getLsbD 0 = false ∧ (0x01 : Byte).getLsbD 0 = true := by decide +kernel

theorem witness_SemTakeByOwnership :
    claimed.running 1 = true ∧ claimed.running 2 = true ∧ 8 ≤ (8 : Byte).toNat ∧
    (7 : Byte).toNat = (7 : SemIdx).val ∧ (claimed.port 1).role = .member ∧
    ((claimed.port 2).role = .supervisor ∧ (claimed.sem 0).owner = some 0 ∧ (0 : Port) ≠ 2) ∧
    ((7 : SemIdx) ≠ 0 ∧ (claimed.sem 7).owner = none) ∧
    ((claimed.port 0).role = .supervisor ∧ (claimed.sem 0).owner = some 0) := by decide +kernel

theorem witness_SemGiveAndBreakFree :
    claimed.running 0 = true ∧ claimed.running 1 = true ∧ 8 ≤ (8 : Byte).toNat ∧
    ((0 : Byte).toNat = (0 : SemIdx).val ∧ (claimed.sem 0).owner ≠ some 1 ∧ (claimed.sem 0).owner = some 0) ∧
    (claimed.port 1).role = .member ∧ (claimed.port 2).role = .supervisor ∧ (claimed.sem 7).owner = none := by
  decide +kernel

theorem witness_TableReadsReportTheEntry :
    base.running 1 = true ∧ 32 ≤ (32 : Byte).toNat ∧ 16 ≤ (16 : Byte).toNat ∧
    (31 : Byte).toNat = (31 : RouteIdx).val ∧ (15 : Byte).toNat = (15 : PollIdx).val ∧
    (base.poll 15).result.data.length ≤ 8 := by decide +kernel

theorem witness_RouteSetAndClear :
    let fits (f : RouteFields) : Prop :=
      0x08 ≤ f.aliasByte.toNat % 128 ∧ f.aliasByte.toNat % 128 ≤ 0x77 ∧ f.segment.toNat ≤ 3 ∧
      0x08 ≤ f.target.toNat % 128 ∧ f.target.toNat % 128 ≤ 0x77 ∧ f.right0.toNat ≤ 2 ∧ f.right1.toNat ≤ 2 ∧
      f.right2.toNat ≤ 2 ∧ f.posted.toNat ≤ 1 ∧ f.holdLimit ≠ 0
    (beforeSweep.running 1 = true ∧ (beforeSweep.sem 0).owner ≠ some 1) ∧
    (beforeSweep.running 0 = true ∧ (beforeSweep.sem 0).owner = some 0) ∧
    32 ≤ (32 : Byte).toNat ∧ (31 : Byte).toNat = (31 : RouteIdx).val ∧
    ¬fits ⟨31, 0x07, 3, 0x77, 2, 2, 2, 1, 1⟩ ∧ ¬fits ⟨31, 0x08, 3, 0x78, 2, 2, 2, 1, 1⟩ ∧
    fits ⟨31, 0x88, 3, 0x77, 2, 2, 2, 1, 1⟩ ∧
    ((beforeSweep.route 31).valid = false ∧ ∀ j, j ≠ 31 → (beforeSweep.route j).valid = true →
      (beforeSweep.route j).aliasAddr ≠ (0x88 : Byte).setWidth 7) ∧
    (fits ⟨31, 0x40, 3, 0x77, 2, 2, 2, 1, 1⟩ ∧ (4 : RouteIdx) ≠ 31 ∧ (beforeSweep.route 4).valid = true ∧
      (beforeSweep.route 4).aliasAddr = (0x40 : Byte).setWidth 7) ∧
    (∀ j, j ≠ 4 → (beforeSweep.route j).valid = true → (beforeSweep.route j).aliasAddr ≠ (0x40 : Byte).setWidth 7) := by
  refine ⟨?_, ?_, ?_, ?_, ?_, ?_, ?_, ?_, ?_, ?_⟩ <;> decide +kernel

theorem witness_PollSetChecksThenConfigures :
    let fits (f : PollFields) : Prop :=
      f.route.toNat ≤ 31 ∧ f.pointerCount.toNat ≤ 2 ∧ 1 ≤ f.readLen.toNat ∧ f.readLen.toNat ≤ 8 ∧
      1 ≤ f.period.toNat ∧ f.period.toNat ≤ 60000 ∧ f.notify.toNat ≤ 7
    (temperature.running 0 = true ∧ (temperature.sem 0).owner = some 0) ∧
    (temperature.running 1 = true ∧ (temperature.sem 0).owner ≠ some 1) ∧
    16 ≤ (16 : Byte).toNat ∧ (15 : Byte).toNat = (15 : PollIdx).val ∧
    ¬fits ⟨15, 6, 2, 0, 0, 9, 60000, 7⟩ ∧ ¬fits ⟨15, 6, 2, 0, 0, 8, 60001, 7⟩ ∧ ¬fits ⟨15, 6, 2, 0, 0, 8, 60000, 8⟩ ∧
    (fits ⟨15, 6, 2, 0, 0, 8, 60000, 7⟩ ∧ (6 : Byte).toNat = (6 : RouteIdx).val ∧ (temperature.route 6).valid = true) ∧
    (fits ⟨15, 31, 0, 0, 0, 1, 1, 0⟩ ∧ (31 : Byte).toNat = (31 : RouteIdx).val ∧
      (temperature.route 31).valid = false) := by decide +kernel

theorem witness_PollStartAndStop :
    let s := temperature.setPoll 15 entry2
    (s.running 1 = true ∧ (s.sem 0).owner ≠ some 1) ∧ (s.running 0 = true ∧ (s.sem 0).owner = some 0) ∧
    16 ≤ (16 : Byte).toNat ∧ (15 : Byte).toNat = (15 : PollIdx).val ∧
    (s.route (s.poll 0).config.route).valid = false ∧
    ((s.route (s.poll 15).config.route).valid = true ∧ (s.poll 15).state = .active) ∧
    ((s.route ((temperature.setPoll 15 { entry2 with state := .off }).poll 15).config.route).valid = true ∧
      ((temperature.setPoll 15 { entry2 with state := .off }).poll 15).state ≠ .active) := by decide +kernel

theorem witness_MarksCountDownAndAgePolls :
    let s := temperature.setPoll 2 entry2
    let busy := temperature.setPoll 2 { entry2 with mark := .queued, overrun := 255 }
    let offline := withEngine s 1 .faulted
    s.held = false ∧ (s.poll 3).state ≠ .active ∧
    (((temperature.setPoll 2 { entry2 with countdown := 2 }).poll 2).state = .active ∧
      1 < ((temperature.setPoll 2 { entry2 with countdown := 2 }).poll 2).countdown) ∧
    ((s.poll 2).state = .active ∧ (s.poll 2).countdown ≤ 1 ∧ (s.poll 2).mark = .none ∧
      (s.engine (s.route (s.poll 2).config.route).key.seg).state ≠ .faulted ∧
      (s.engine (s.route (s.poll 2).config.route).key.seg).state ≠ .disabled) ∧
    ((busy.poll 2).state = .active ∧ (busy.poll 2).countdown ≤ 1 ∧ (busy.poll 2).mark ≠ .none) ∧
    ((offline.poll 2).state = .active ∧ (offline.poll 2).countdown ≤ 1 ∧ (offline.poll 2).mark = .none ∧
      (offline.poll 2).discard = false ∧
      (offline.engine (offline.route (offline.poll 2).config.route).key.seg).state = .faulted) := by decide +kernel

theorem witness_OutcomesReachTheirOwners :
    (sensor.port 1).reqs.find? (fun x => x.state = .inFlight && x.key.seg == 2) =
      some { read2 0x44 2 0x3A with readLen := 4, state := .inFlight } ∧
    ((temperature.setPoll 2 { entry2 with discard := true }).poll 2).discard = true ∧
    ((temperature.setPoll 2 entry2).poll 2).discard = false := by decide +kernel

theorem witness_SegmentSetChecksThenConfigures :
    let fits (f : SegmentFields) : Prop :=
      f.speed.toNat ≤ 2 ∧ f.limit ≠ 0 ∧ f.mode.toNat ≤ 1 ∧
      f.rank1.toNat ≤ 3 ∧ f.rank2.toNat ≤ 3 ∧ f.rank3.toNat ≤ 3 ∧ f.rank4.toNat ≤ 3 ∧
      [f.rank1, f.rank2, f.rank3, f.rank4].Nodup ∧
      8 ≤ f.quantum0.toNat ∧ 8 ≤ f.quantum1.toNat ∧ 8 ≤ f.quantum2.toNat ∧ 8 ≤ f.quantum3.toNat
    (claimed.running 0 = true ∧ (claimed.sem 0).owner = some 0) ∧
    (claimed.running 1 = true ∧ (claimed.sem 0).owner ≠ some 1) ∧
    4 ≤ (4 : Byte).toNat ∧ (3 : Byte).toNat = (3 : Seg).val ∧
    ¬fits ⟨3, 2, 1, 1, 0, 1, 2, 2, 8, 8, 8, 8⟩ ∧ ¬fits ⟨3, 2, 1, 1, 3, 1, 2, 0, 8, 8, 8, 7⟩ ∧
    fits ⟨3, 2, 1, 1, 3, 1, 2, 0, 8, 8, 8, 255⟩ ∧ fits ⟨3, 0, 255, 0, 0, 1, 2, 3, 8, 8, 8, 8⟩ ∧
    (claimed.arbiter 3).mode = .priority ∧ (sixGrants.arbiter 3).mode = .deficit := by decide +kernel

theorem witness_SegmentGetReports :
    base.running 1 = true ∧ 4 ≤ (4 : Byte).toNat ∧ (3 : Byte).toNat = (3 : Seg).val ∧
    (base.engine 3).state = .checking 0 0 ∧
    ((sensor.engine 2).state = .active ⟨.port 1, ⟨0x3A, [], 4⟩, (⟨0x3A, [], 4⟩ : Work).elements, .khz100, 25, 0, 0⟩ ∧
      (⟨0x3A, [], 4⟩ : Work).elements ≠ []) := by decide +kernel

theorem witness_SegmentDisableRestoreAndStatsClear :
    (claimed.running 1 = true ∧ (claimed.sem 0).owner ≠ some 1) ∧
    (claimed.running 0 = true ∧ (claimed.sem 0).owner = some 0) ∧
    4 ≤ (4 : Byte).toNat ∧ (3 : Byte).toNat = (3 : Seg).val ∧
    ((withEngine claimed 3 .disabled).engine 3).state = .disabled ∧ ((withEngine claimed 3 .idle).engine 3).state = .idle ∧
    (claimed.engine 3).state = .checking 0 0 ∧ ((withEngine claimed 3 .faulted).engine 3).state = .faulted ∧
    ((withEngine claimed 3 (.recovering .waitScl 9 false)).engine 3).state = .recovering .waitScl 9 false ∧
    (sensor.engine 2).state = carrying (.port 1) ⟨0x3A, [], 4⟩ ∧
    ((withEngine claimed 3 (.recovering (.pulse 9) 0 true)).engine 3).state = .recovering (.pulse 9) 0 true ∧
    ((withEngine claimed 3 (.recovering .stop 0 true)).engine 3).state = .recovering .stop 0 true := by decide +kernel

theorem witness_GoingOfflineDrainsTheSegment :
    (beforeSweep.dueOf 0).Nodup ∧ (6 : PollIdx) ∈ beforeSweep.dueOf 0 ∧ (5 : PollIdx) ∉ beforeSweep.dueOf 0 := by
  decide +kernel

/-! Decidable forms of what is said of every used hold entry. -/

def everyHold (s : State) (f : HoldIdx → HoldEntry → Bool) : Bool :=
  allHolds.all fun i =>
    match s.hold i with
    | some e => f i e
    | none => true

theorem everyHold_spec {s : State} {f : HoldIdx → HoldEntry → Bool} (h : everyHold s f = true) {i : HoldIdx}
    {e : HoldEntry} (he : s.hold i = some e) : f i e = true := by
  have m : ∀ i : HoldIdx, i ∈ allHolds := by decide
  have a := List.all_eq_true.mp h i (m i)
  rw [he] at a
  exact a

theorem holdKeysUnique_of_check {s : State}
    (h : everyHold s (fun i a => everyHold s fun j b => a.key != b.key || i == j) = true) : HoldKeysUnique s := by
  intro i j a b ha hb k
  have x := everyHold_spec (everyHold_spec h ha) hb
  rw [k] at x
  simpa using x

theorem sixGrants_holdKeysUnique : HoldKeysUnique sixGrants := holdKeysUnique_of_check (by decide +kernel)

theorem witness_CandidatesAreEligibleHeads :
    HoldKeysUnique sixGrants ∧ (sixGrants.portCandidate 3 1).isSome = true ∧ sixGrants.pollCandidate 3 = some 4 :=
  ⟨sixGrants_holdKeysUnique, by decide +kernel⟩

/-- Segment 3 in PRIORITY mode with a candidate of port 2 and of the poll contender. -/
def priority3 : State := withReqs (withReqs (sixGrants.setArbiter 3 Arbiter.pinReset) 0 []) 1 []

theorem witness_PriorityServesTheHighestRanked :
    ((priority3.arbiter 3).mode = .priority ∧ (priority3.arbiter 3).ranking.toList = [0, 1] ++ 2 :: [3] ∧
      priority3.candidate 3 2 ≠ none ∧ ∀ x ∈ ([0, 1] : List Contender), priority3.candidate 3 x = none) ∧
    ((base.arbiter 3).mode = .priority ∧ ∀ c, base.candidate 3 c = none) := by decide +kernel

theorem sixGrants_deficitBounds : DeficitBounds sixGrants := by
  unfold DeficitBounds CostsBounded ArbiterSound
  decide +kernel

theorem witness_DeficitRotationEndsWithTheWinner :
    DeficitBounds sixGrants ∧ (sixGrants.arbiter 3).mode = .deficit ∧ ∃ c, sixGrants.candidate 3 c ≠ none :=
  ⟨sixGrants_deficitBounds, by decide +kernel, 1, by decide +kernel⟩

/-- Only the poll contender has a candidate. -/
def pollOnly : State := withReqs priority3 2 []

theorem witness_GrantStartsTheTransaction :
    (sixGrants.held = false ∧ (sixGrants.engine 3).state = .idle ∧ (sixGrants.engine 3).disablePending = false ∧
      sixGrants.winner 3 = some (1, { sixGrants.arbiter 3 with deficits := #v[0, 20, 0, 0], current := 1 }) ∧
      sixGrants.candidate 3 1 = ((sixGrants.port 1).reqs.head?).map (Candidate.request 1) ∧
      (sixGrants.port 1).reqs.map (·.underHold) = [false, false]) ∧
    (pollOnly.held = false ∧ (pollOnly.engine 3).state = .idle ∧ (pollOnly.engine 3).disablePending = false ∧
      pollOnly.winner 3 = some (3, pollOnly.arbiter 3) ∧ pollOnly.candidate 3 3 = some (.poll 4)) := by decide +kernel

/-- Port 2's head is UNDER_HOLD and its port holds nothing. -/
def unheld : State := withReqs priority3 2 [{ read2 4 3 0x2C with underHold := true }]

theorem witness_HoldLostDecidesAgain :
    (unheld.held = false ∧ (unheld.engine 3).state = .idle ∧ (unheld.engine 3).disablePending = false ∧
      unheld.winner 3 = some (2, unheld.arbiter 3) ∧
      unheld.candidate 3 2 = some (.request 2 { read2 4 3 0x2C with underHold := true }) ∧
      unheld.holderOf ⟨3, 0x2C⟩ ≠ some 2) ∧
    ((base.engine 3).state ≠ .idle ∧ (withEngine base 3 .idle).winner 3 = none) := by decide +kernel

/-- The hold table with entry 0 used for the key segment 1, target 0x52. -/
def held52 (p : Port) : State := settling.setHold 0 (some ⟨⟨1, 0x52⟩, p, 5, []⟩)

/-- The hold table is full with other keys. -/
def tableFull : State := { settling with holds := Vector.ofFn fun i => some ⟨⟨0, BitVec.ofNat 7 (0x20 + i.val)⟩, 2, 5, []⟩ }

theorem witness_SettlementsAgainstTheHoldTable :
    (HoldKeysUnique settling ∧ HoldKeysUnique tableFull ∧ HoldKeysUnique (held52 0) ∧ HoldKeysUnique (held52 2)) ∧
    ((settling.held = false ∧ (settling.port 0).readyHead 1 = some (hold5 1 1 0x52) ∧ (hold5 1 1 0x52).kind = .hold ∧
        settling.hold 0 = none) ∧
      ((tableFull.port 0).readyHead 1 = some (hold5 1 1 0x52) ∧ (∀ i, tableFull.hold i ≠ none) ∧
        everyHold tableFull (fun _ e => e.key != ⟨1, 0x52⟩) = true) ∧
      ((held52 0).port 0).readyHead 1 = some (hold5 1 1 0x52) ∧ (held52 2).hold 0 = some ⟨⟨1, 0x52⟩, 2, 5, []⟩) ∧
    (((withReqs (held52 0) 0 [release 4 1 0x52]).port 0).readyHead 1 = some (release 4 1 0x52) ∧
      ((withReqs (held52 2) 0 [release 4 1 0x52]).port 0).readyHead 1 = some (release 4 1 0x52)) ∧
    (base.port 0).readyHead 1 = none :=
  ⟨⟨holdKeysUnique_of_check (by decide +kernel), holdKeysUnique_of_check (by decide +kernel),
    holdKeysUnique_of_check (by decide +kernel), holdKeysUnique_of_check (by decide +kernel)⟩, by decide +kernel⟩

theorem witness_HandOverAndExpiry :
    let waiting := (withReqs base 1 [{ hold5 0x20 1 0x52 with state := .waitingHold }]).setHold 0
      (some ⟨⟨1, 0x52⟩, 0, 1, [⟨1, 0x20, 5⟩]⟩)
    ((held52 0).held = false ∧ (held52 0).hold 0 = some ⟨⟨1, 0x52⟩, 0, 5, []⟩ ∧ base.hold 0 = none) ∧
    (waiting.hold 0 = some ⟨⟨1, 0x52⟩, 0, 1, [⟨1, 0x20, 5⟩]⟩ ∧
      (waiting.port 1).reqs.find? (fun x => x.tag == 0x20) =
        some { hold5 0x20 1 0x52 with state := .waitingHold }) := by decide +kernel

theorem witness_TransactionElementsAndOutcome :
    let w : Work := ⟨0x51, List.replicate 32 0xAA, 32⟩
    w.write ≠ [] ∧ 0 < w.readLen ∧ 31 < w.write.length ∧ (List.replicate 32 (0 : Byte)).length = w.readLen ∧
      (⟨0x51, [], 4⟩ : Work).write = [] := by decide +kernel

theorem witness_TransactionEndReturnsToIdle :
    let pending := sensor.setEngine 2 { sensor.engine 2 with disablePending := true }
    let cut := withEngine base 2 (carrying (.cut .portReset) ⟨0x3A, [], 4⟩)
    (sensor.held = false ∧ (sensor.engine 2).state = carrying (.port 1) ⟨0x3A, [], 4⟩ ∧
      (∀ c, Carrier.port 1 ≠ .cut c) ∧ (sensor.engine 2).disablePending = false) ∧
    (pending.held = false ∧ (pending.engine 2).state = carrying (.port 1) ⟨0x3A, [], 4⟩ ∧
      (pending.engine 2).disablePending = true) ∧
    (cut.held = false ∧ (cut.engine 2).state = carrying (.cut .portReset) ⟨0x3A, [], 4⟩) :=
  ⟨⟨by decide +kernel, by decide +kernel, fun _ h => (nomatch h), by decide +kernel⟩, by decide +kernel, by decide +kernel⟩

theorem witness_ConflictAndTimeoutEndTheTransaction :
    let e := sensor.engine 2
    sensor.held = false ∧ e.state = carrying (.port 1) ⟨0x3A, [], 4⟩ ∧ e.disablePending = false ∧ e.tries < 2 ∧
    ((sensor.setEngine 2 { e with tries := 2 }).engine 2).tries = 2 ∧
    ((sensor.setEngine 2 { e with disablePending := true }).engine 2).disablePending = true := by decide +kernel

theorem witness_CheckingWindowsAndCutEnds :
    let cut := withEngine base 2 (carrying (.cut .portReset) ⟨0x3A, [], 4⟩)
    (base.held = false ∧ ((withEngine base 2 .idle).engine 2).state = .idle ∧ (base.engine 2).state ≠ .idle ∧
      ((withEngine base 2 (.checking 1 49)).engine 2).state = .checking 1 49 ∧ (base.engine 2).tries < 2 ∧
      2 ≤ ((base.setEngine 2 { Engine.pinReset with tries := 2 }).engine 2).tries) ∧
    (cut.held = false ∧ (cut.engine 2).state = carrying (.cut .portReset) ⟨0x3A, [], 4⟩ ∧
      (cut.engine 2).disablePending = false ∧
      ((cut.setEngine 2 { cut.engine 2 with disablePending := true }).engine 2).disablePending = true) := by decide +kernel

theorem witness_RecoveryStepsAndInterruptions :
    let at2 (st : EngineState) (pending : Bool) : State :=
      base.setEngine 2 { Engine.pinReset with state := st, disablePending := pending }
    (base.held = false ∧ (base.engine 2).disablePending = false ∧
      ((at2 (.recovering .waitScl 9 false) false).engine 2).state = .recovering .waitScl 9 false ∧
      ((at2 (.recovering (.pulse 8) 0 false) false).engine 2).state = .recovering (.pulse 8) 0 false ∧
      ((at2 (.recovering (.pulse 9) 0 false) false).engine 2).state = .recovering (.pulse 9) 0 false ∧
      ((at2 (.recovering .stop 9 false) false).engine 2).state = .recovering .stop 9 false) ∧
    ((at2 (.recovering (.pulse 1) 0 true) true).engine 2).disablePending = true ∧
    ((at2 (.recovering .stop 0 true) true).engine 2).state = .recovering .stop 0 true ∧
    ((at2 (.recovering (.pulse 1) 0 true) false).engine 2).state = .recovering (.pulse 1) 0 true := by decide +kernel

theorem witness_LinesAndMisoFollowTheState :
    { base with held := true }.held = true ∧ base.held = false ∧
    ((withFrame base 1 .fetch .none).running 1 = true ∧
      ((withFrame base 1 .fetch .none).port 1).frame = some ⟨some .fetch, 1, [0x00], .none⟩) ∧
    (base.running 1 = true ∧ (base.port 1).frame = none) ∧
    (frameCommands 1 [0x10, 0] = [.framingError 1] ∧ frameCommands 1 [0x13, 0, 0] ≠ [.framingError 1]) ∧
    inReset1.running 1 = false := by decide +kernel

/-! ### The invariants hold of a busy state that takes a step -/

/-- Port 0 has a transaction on segment 0 with a disable pending and holds a key of segment 3 that port 1 waits for;
port 2 is in reset; segment 1 is DISABLED; segment 2 carries poll 7, poll 6 is due on segment 3, whose arbiter stands
at its bounds. The decrease of the hold is next in the queue. -/
def busy : State :=
  let s := (base.setSem 0 ⟨some 0, 0⟩).setSem 3 ⟨some 1, 0b001⟩
  let s := (s.setRoute 3 ⟨true, 0x48, ⟨1, 0x4C⟩, #v[.none, .read, .none], false, 20⟩).setRoute 7
    ⟨true, 0x50, ⟨3, 0x50⟩, #v[.none, .readWrite, .none], true, 5⟩
  let s := withReqs s 0 [{ read2 0x10 0 0x20 with state := .inFlight }, read2 0x11 0 0x20, posted1 0x12 3 0x21]
  let s := withReqs s 1 [{ hold5 0x20 3 0x30 with state := .waitingHold }, read2 0x21 3 0x30]
  let s := withResults s 0 (manyResults 14)
  let s := s.modifyPort 2 fun ps => { ps with inReset := true }
  let s := s.setHold 0 (some ⟨⟨3, 0x30⟩, 0, 5, [⟨1, 0x20, 5⟩]⟩)
  let s := s.setEngine 0
    { Engine.pinReset with
      state := carrying (.port 0) ⟨0x20, [], 2⟩, disablePending := true, tries := 2, faultCount := 255 }
  let s := withEngine (withEngine (withEngine s 1 .disabled) 2 (carrying (.poll 7) ⟨0x48, [], 2⟩)) 3 .idle
  let s := (s.setPoll 7 { entry2 with mark := .inFlight }).setPoll 6 { entry2 with mark := .queued }
  let s := (s.setDue 3 [6]).setArbiter 3 ⟨.deficit, #v[0, 1, 2, 3], #v[8, 255, 8, 8], #v[72, 64, 64, 64], 0⟩
  { s with pending := [.holdDecrease 0] }

theorem busy_steps : ∃ t, step busy = .next t := ⟨_, rfl⟩

theorem busy_aliasesUnique : AliasesUnique busy := by
  unfold AliasesUnique
  decide +kernel

theorem witness_StepKeepsAliasesUnique : AliasesUnique busy ∧ ∃ t, step busy = .next t :=
  ⟨busy_aliasesUnique, busy_steps⟩

theorem busy_semaphoresSound : SemaphoresSound busy := by
  unfold SemaphoresSound
  decide +kernel

theorem witness_StepKeepsSemaphoresSound : SemaphoresSound busy ∧ ∃ t, step busy = .next t :=
  ⟨busy_semaphoresSound, busy_steps⟩

theorem busy_requestBounds : RequestBounds busy := by
  unfold RequestBounds PortBounds
  decide +kernel

theorem crowded_requestBounds : RequestBounds (crowded 11 5 5) := by
  unfold RequestBounds PortBounds
  decide +kernel

/-- A transaction just granted has all its elements before it. -/
theorem carrying_sound {st : EngineState} (c : Carrier) (w : Work) (h : st = carrying c w) (hc : ∀ x, c ≠ .cut x) :
    ∀ x, st = .active x → AheadSound x ∧ x.ahead ≠ [] := by
  rintro x rfl
  cases h
  refine ⟨?_, ?_⟩
  · unfold AheadSound
    cases c with
    | port _ => rfl
    | poll _ => rfl
    | cut x => exact absurd rfl (hc x)
  · show w.elements ≠ []
    unfold Work.elements
    split <;> simp

theorem busy_enginesSound : EnginesSound busy := by
  intro g
  match g with
  | 0 =>
    exact ⟨by decide +kernel, by decide +kernel, carrying_sound (.port 0) ⟨0x20, [], 2⟩ (by decide +kernel) nofun,
      fun _ => trivial⟩
  | 1 =>
    have a : (busy.engine 1).state = .disabled := by decide +kernel
    exact ⟨by decide +kernel, by decide +kernel, fun x h => (nomatch a.symm.trans h), fun h => absurd h (by decide +kernel)⟩
  | 2 =>
    exact ⟨by decide +kernel, by decide +kernel, carrying_sound (.poll 7) ⟨0x48, [], 2⟩ (by decide +kernel) nofun,
      fun h => absurd h (by decide +kernel)⟩
  | 3 =>
    have a : (busy.engine 3).state = .idle := by decide +kernel
    exact ⟨by decide +kernel, by decide +kernel, fun x h => (nomatch a.symm.trans h), fun h => absurd h (by decide +kernel)⟩

theorem witness_StepKeepsEnginesSound : EnginesSound busy ∧ ∃ t, step busy = .next t :=
  ⟨busy_enginesSound, busy_steps⟩

theorem busy_deficitBounds : DeficitBounds busy := by
  unfold DeficitBounds CostsBounded ArbiterSound
  decide +kernel

theorem witness_StepKeepsDeficitBounds : DeficitBounds busy ∧ ∃ t, step busy = .next t :=
  ⟨busy_deficitBounds, busy_steps⟩

theorem busy_dueSound : DueSound busy := by
  unfold DueSound
  decide +kernel

theorem witness_StepKeepsDueListsSound : DueSound busy ∧ ∃ t, step busy = .next t := ⟨busy_dueSound, busy_steps⟩

theorem busy_lanesSound : LanesSound busy := by
  unfold LanesSound
  decide +kernel

/-- Engine `g` carries port `p`'s transaction. -/
def carriesPort (s : State) (g : Seg) (p : Port) : Bool :=
  match (s.engine g).state with
  | .active x => x.carrier == .port p
  | _ => false

theorem carriesPort_iff (s : State) (g : Seg) (p : Port) :
    carriesPort s g p = true ↔ ∃ x, (s.engine g).state = .active x ∧ x.carrier = .port p := by
  unfold carriesPort
  split
  · next x h => simp [h]
  · next h =>
    constructor
    · intro a; cases a
    · rintro ⟨x, hx, _⟩
      exact absurd hx (h x)

theorem busy_inFlightSound : InFlightSound busy := by
  refine ⟨fun p g => ?_, by decide +kernel⟩
  rw [← carriesPort_iff]
  revert p g
  decide +kernel

theorem busy_offlineSegmentsIdle : OfflineSegmentsIdle busy := by
  have a : ∀ g, busy.offline g = true → (∀ p, (busy.port p).lane g = []) ∧ busy.dueOf g = [] ∧
      everyHold busy (fun _ e => e.key.seg != g) = true := by decide +kernel
  exact fun g h => ⟨(a g h).1, (a g h).2.1, fun i e he => by simpa using everyHold_spec (a g h).2.2 he⟩

theorem busy_holdKeysUnique : HoldKeysUnique busy := holdKeysUnique_of_check (by decide +kernel)

theorem busy_waitersSound : WaitersSound busy := by
  refine ⟨fun i e he => ?_, fun p r hr hs => ?_⟩
  · have a : everyHold busy (fun _ e => (e.waiters.map (·.port)).Nodup ∧ e.holder ∉ e.waiters.map (·.port) ∧
        ∀ w ∈ e.waiters, ∃ r ∈ (busy.port w.port).reqs, r.tag = w.tag ∧ r.state = .waitingHold ∧ r.kind = .hold ∧
          r.key = e.key ∧ r.holdLimit.getD 1 = w.limit) = true := by decide +kernel
    simpa using everyHold_spec a he
  · have a : ∀ p, ∀ r ∈ (busy.port p).reqs, r.state = .waitingHold → r.key = ⟨3, 0x30⟩ ∧ p = 1 ∧ r.tag = 0x20 := by
      decide +kernel
    obtain ⟨k, rfl, rt⟩ := a p r hr hs
    exact ⟨0, ⟨⟨3, 0x30⟩, 0, 5, [⟨1, 0x20, 5⟩]⟩, by decide +kernel, k.symm, ⟨1, 0x20, 5⟩, by decide +kernel, rfl, rt.symm⟩

theorem witness_StepKeepsRequestBounds :
    (RequestBounds busy ∧ LanesSound busy ∧ HoldKeysUnique busy ∧ WaitersSound busy ∧ ∃ t, step busy = .next t) ∧
      RequestBounds (crowded 11 5 5) :=
  ⟨⟨busy_requestBounds, busy_lanesSound, busy_holdKeysUnique, busy_waitersSound, busy_steps⟩, crowded_requestBounds⟩

theorem witness_StepKeepsLanesAndEnginesTogether :
    RequestBounds busy ∧ LanesSound busy ∧ InFlightSound busy ∧ OfflineSegmentsIdle busy ∧ HoldKeysUnique busy ∧
      WaitersSound busy ∧ ∃ t, step busy = .next t :=
  ⟨busy_requestBounds, busy_lanesSound, busy_inFlightSound, busy_offlineSegmentsIdle, busy_holdKeysUnique,
    busy_waitersSound, busy_steps⟩

theorem witness_StepKeepsTheHoldTableSound :
    RequestBounds busy ∧ LanesSound busy ∧ HoldKeysUnique busy ∧ WaitersSound busy ∧ ∃ t, step busy = .next t :=
  ⟨busy_requestBounds, busy_lanesSound, busy_holdKeysUnique, busy_waitersSound, busy_steps⟩

theorem busy_resetPortsEmpty : ResetPortsEmpty busy := by
  intro _ p hp
  have a : ∀ p, (busy.port p).inReset = true → (busy.port p).frame = none ∧ (busy.port p).reqs = [] ∧
      (busy.port p).results = [] ∧ (busy.port p).postedFault = none ∧ (busy.port p).holdEnds = [] ∧
      (busy.port p).lostEnds = 0 ∧ (busy.port p).notices = ⟨0, 0, 0, 0⟩ ∧
      (∀ n, (busy.sem n).owner ≠ some p ∧ (busy.sem n).interest.getLsbD p.val = false) ∧
      everyHold busy (fun _ e => e.holder ≠ p ∧ p ∉ e.waiters.map (·.port)) = true := by decide +kernel
  obtain ⟨h1, h2, h3, h4, h5, h6, h7, h8, h9⟩ := a p hp
  exact ⟨h1, h2, h3, h4, h5, h6, h7, h8, fun i e he => by simpa using everyHold_spec h9 he⟩

theorem witness_StepKeepsResetPortsEmpty :
    ResetPortsEmpty busy ∧ (∃ p, (busy.port p).inReset = true) ∧ ∃ t, step busy = .next t :=
  ⟨busy_resetPortsEmpty, ⟨2, by decide +kernel⟩, busy_steps⟩

end Sys2Proof.Tests
end

section
/-! PROOF. Where the outcome of a completing request goes (R17, R43, R135). -/

namespace Sys2Proof.Machine

set_option Elab.async false

open PortState
namespace PortState

variable {ps : PortState} {r : Request} {e : Ending}

/-- A port that is IN_RESET is given nothing (R139, R159). -/
theorem complete_inReset_eq (h : ps.inReset = true) :
    ps.complete r e = { ps with reqs := ps.reqs.eraseP fun x => x.tag == r.tag } := by
  unfold complete deliver
  split
  · split
    · rfl
    · simp [enterFault, h]
  · exact pushResult_inReset_eq _ _ h

/-- A posted request that fails is entered into the posted-fault record of its port (R17, R135). -/
theorem complete_posted_failed (hp : r.posted = true) (hdone : e.status ≠ .done) (hcancelled : e.status ≠ .cancelled) :
    ps.complete r e =
      { ps with reqs := ps.reqs.eraseP fun x => x.tag == r.tag }.enterFault r e.status e.ackCount := by
  simp [complete, deliver, hp, hdone, hcancelled]

/-- The first failure fills the posted-fault record (R135). -/
theorem enterFault_first (h : ps.inReset = false) (hnone : ps.postedFault = none) (st : Status) (ack : Nat) :
    (ps.enterFault r st ack).postedFault = some ⟨r.tag, r.route, r.key, st, ack, 0⟩ := by
  simp [enterFault, h, hnone]

/-- With a failure in the record a further one is counted, up to 255 (R135). -/
theorem enterFault_further {f : PostedFault} (h : ps.inReset = false) (hf : ps.postedFault = some f) (st : Status)
    (ack : Nat) :
    (ps.enterFault r st ack).postedFault = some { f with further := min (f.further + 1) 255 } := by
  simp [enterFault, h, hf, satInc]

end PortState

/-- Settles O17, by whether the request is posted and how it ended. -/
theorem completionGoesToTheResultStore : Obligations.CompletionGoesToTheResultStore := by
  refine ⟨fun ps r e h => complete_inReset_eq h, fun ps r e h => ⟨?_, ?_, ?_⟩⟩
  · exact fun hp => complete_nonposted ps r e h hp
  · exact fun hp he => complete_posted_silent ps r e hp he
  · intro hp hdone hcancelled
    rw [complete_posted_failed hp hdone hcancelled]
    refine ⟨enterFault_reqs .., enterFault_results .., fun hnone => ?_, fun f hf => ?_⟩
    · exact enterFault_first (by exact h) (by exact hnone) _ _
    · exact enterFault_further (by exact h) (by exact hf) _ _

end Sys2Proof.Machine
end

section
/-! PROOF. SUBMIT: admission is the ten checks in order, refused and admitted (R5, R15, R16). -/

namespace Sys2Proof.Machine

set_option Elab.async false

open State PortState

/-! ### Checks in order -/

/-- The outcome of checks taken in order: the code of the first that fails, or the value (R5). -/
def guarded {α : Type} (checks : List (Bool × ReplyStatus)) (x : α) : Except ReplyStatus α :=
  match (checks.find? fun c => !c.1).map (·.2) with
  | some code => .error code
  | none => .ok x

theorem guarded_cons {α : Type} (b : Bool) (code : ReplyStatus) (checks : List (Bool × ReplyStatus)) (x : α) :
    guarded ((b, code) :: checks) x = if !b then .error code else guarded checks x := by
  cases b <;> simp [guarded]

@[simp] theorem guarded_nil {α : Type} (x : α) : guarded [] x = .ok x := rfl

/-! ### The readings of a SUBMIT -/

/-- A kind byte is one of the codes 1 to 6, or no kind (R6). -/
theorem readKind_cases (b : Byte) :
    (readKind b = none ∧ ¬(1 ≤ b.toNat ∧ b.toNat ≤ 6)) ∨ ∃ k : Kind, readKind b = some k ∧ k.code = b := by
  by_cases h : 1 ≤ b.toNat ∧ b.toNat ≤ 6
  · refine .inr ?_
    obtain ⟨k, hk⟩ : ∃ k : Kind, k.code.toNat = b.toNat := by
      have : b.toNat = 1 ∨ b.toNat = 2 ∨ b.toNat = 3 ∨ b.toNat = 4 ∨ b.toNat = 5 ∨ b.toNat = 6 := by omega
      rcases this with e | e | e | e | e | e
      · exact ⟨.read, e.symm⟩
      · exact ⟨.write, e.symm⟩
      · exact ⟨.writeRead, e.symm⟩
      · exact ⟨.probe, e.symm⟩
      · exact ⟨.hold, e.symm⟩
      · exact ⟨.release, e.symm⟩
    obtain rfl := BitVec.eq_of_toNat_eq hk
    exact ⟨k, by cases k <;> rfl, rfl⟩
  · refine .inl ⟨?_, h⟩
    have hne (n : Byte) (hn : 1 ≤ n.toNat ∧ n.toNat ≤ 6) : b ≠ n := fun e => h (e ▸ hn)
    simp [readKind, hne]

variable {f : SubmitFields} {k : Kind}

theorem lengthsFit_eq_lengthsMatch (w r : Nat) : lengthsFit k w r = lengthsMatch k.code.toNat w r := by
  cases k <;> simp [lengthsFit, lengthsMatch, Kind.code, Bool.and_assoc]

theorem beq_write_eq : (k == .write) = (k.code.toNat == 2) := by
  cases k <;> rfl

theorem usesBus_eq : k.usesBus = decide (k.code.toNat ≤ 4) := by
  cases k <;> rfl

theorem flagsFit_eq (flags : Byte) :
    flagsFit k flags = ((!flags.getLsbD 0 || k.code.toNat == 2) && (!flags.getLsbD 2 || k.code.toNat ≤ 4)) := by
  rw [flagsFit, beq_write_eq, usesBus_eq, flagPosted, flagUnderHold]

theorem rightPermits_eq_rightAllows (right : Right) (w : Nat) :
    rightPermits right k w = rightAllows right k.code.toNat w := by
  cases right <;> cases k <;> simp [rightPermits, rightAllows, Kind.code]

namespace State

variable (s : State) (p : Port)

theorem permits_eq (route : Option RouteIdx) (w : Nat) :
    s.permits p route k w = route.all fun i => rightAllows (s.route i).rights[p] k.code.toNat w := by
  cases route <;> simp [permits, rightPermits_eq_rightAllows]

theorem permitsPosted_eq (route : Option RouteIdx) : s.permitsPosted route = route.all fun i => (s.route i).posted := by
  cases route <;> rfl

theorem online_eq_takesRequests (g : Seg) : s.online g = takesRequests (s.engine g) := by
  unfold online takesRequests
  cases (s.engine g).state <;> simp

theorem resolved_mode_zero (h : f.mode = 0x00) : s.resolved f =
    (s.resolveAlias (readAddr f.aliasByte)).map fun i => ((s.route i).key, some i) := by
  rw [resolved, if_pos h]
  rfl

theorem usable_iff (b : Byte) : usable (readAddr b) = true ↔ 0x08 ≤ b.toNat % 128 ∧ b.toNat % 128 ≤ 0x77 := by
  simp [usable, readAddr]

theorem resolved_mode_one (h : f.mode = 0x01) : s.resolved f = (readIdx 4 f.segment).bind fun g =>
    if usable (readAddr f.target) then some (⟨g, readAddr f.target⟩, none) else none := by
  have h0 : f.mode ≠ 0x00 := by simp [h]
  rw [resolved, if_neg h0]
  by_cases hg : f.segment.toNat < 4
  · rw [readIdx_of_lt ⟨_, hg⟩ rfl, Option.bind_some]
    by_cases hu : usable (readAddr f.target) = true
    · rw [if_pos hu, dif_pos ⟨h, hg, (usable_iff _).mp hu⟩]
      rfl
    · rw [if_neg hu, dif_neg fun ⟨_, _, htarget⟩ => hu ((usable_iff _).mpr htarget)]
  · rw [readIdx_of_le (Nat.not_lt.mp hg), dif_neg fun ⟨_, hseg, _⟩ => hg hseg, Option.bind_none]

theorem resolved_mode_other (h0 : f.mode ≠ 0x00) (h1 : f.mode ≠ 0x01) : s.resolved f = none := by
  rw [resolved, if_neg h0, dif_neg fun hc => h1 hc.1]

/-- Check 5: a MEMBER is refused DIRECT before anything is resolved (R9). -/
theorem resolve_eq_guarded (x : Key × Option RouteIdx) : s.resolve p f =
    guarded [(f.mode != 0x01 || (s.port p).role == .supervisor, .notPermitted), ((s.resolved f).isSome, .noRoute)]
      ((s.resolved f).getD x) := by
  simp only [guarded_cons, guarded_nil]
  unfold resolve
  by_cases h0 : f.mode = 0x00
  · rw [resolved_mode_zero s h0, h0]
    cases s.resolveAlias (readAddr f.aliasByte) <;> simp [readDirect]
  · by_cases h1 : f.mode = 0x01
    · rw [resolved_mode_one s h1, h1]
      cases (s.port p).role
      · simp [readDirect]
      · cases readIdx 4 f.segment
        · simp [readDirect]
        · cases usable (readAddr f.target) <;> simp [readDirect]
    · have hmode : (f.mode != 0x01) = true := bne_iff_ne.mpr h1
      rw [resolved_mode_other s h0 h1, readDirect, if_neg h0, if_neg h1, hmode]
      rfl

/-- The request that admission records from a record and what it resolves (R15, R16). -/
def requestOf (f : SubmitFields) (k : Kind) (x : Key × Option RouteIdx) : Request where
  tag := f.tag
  kind := k
  posted := flagPosted f.flags
  fence := flagFence f.flags
  underHold := flagUnderHold f.flags
  route := x.2
  key := x.1
  writeData := f.data
  readLen := f.readLen.toNat
  holdLimit := s.effectiveLimit k x.2 f.holdLimit
  reservation := !flagPosted f.flags
  state := .queued

/-- What the kind byte and the resolution of a SUBMIT make of it; where either is none, the checks refuse it first. -/
def recorded (f : SubmitFields) : Request :=
  s.requestOf f ((readKind f.kind).getD .read) ((s.resolved f).getD (⟨0, 0⟩, none))

theorem recorded_eq {x : Key × Option RouteIdx} (hk : readKind f.kind = some k) (hx : s.resolved f = some x) :
    s.recorded f = s.requestOf f k x := by
  rw [recorded, hk, hx]
  rfl

/-- The effective hold limit: what was sent, or where that is 0 the route's, or 10 for "direct" (R16). -/
theorem effectiveLimit_eq (route : Option RouteIdx) (received : Byte) : s.effectiveLimit k route received =
    if k = .hold then
      some (if received = 0 then (route.map fun i => (s.route i).holdLimit).getD 10 else received.toNat)
    else none := by
  by_cases hk : k = .hold
  · by_cases h0 : received = 0
    · subst h0
      cases route <;> simp [effectiveLimit, hk]
    · unfold effectiveLimit
      rw [if_pos hk, if_pos hk, if_neg h0, if_neg h0]
  · simp [effectiveLimit, hk]

/-- Admission is the ten checks in order, and then the record (R5, R15). -/
theorem admission_eq_guarded (f : SubmitFields) : s.admission p f = guarded (s.submitChecks p f) (s.recorded f) := by
  unfold admission submitChecks
  simp only [guarded_cons, guarded_nil]
  rcases readKind_cases f.kind with ⟨hnone, hrange⟩ | ⟨k, hk, hcode⟩
  · have hkind : (decide (1 ≤ f.kind.toNat) && decide (f.kind.toNat ≤ 6)) = false := by simpa using hrange
    rw [hnone, hkind]
    rfl
  · have hkind : (decide (1 ≤ f.kind.toNat) && decide (f.kind.toNat ≤ 6)) = true := by
      rw [← hcode]
      cases k <;> rfl
    have hrecorded : s.recorded f = s.requestOf f k ((s.resolved f).getD (⟨0, 0⟩, none)) := by
      rw [recorded, hk]
      rfl
    rw [hkind, hk, resolve_eq_guarded s p (⟨0, 0⟩, none), hrecorded]
    simp only [guarded_cons, guarded_nil, lengthsFit_eq_lengthsMatch, flagsFit_eq, hcode, tagInUse, Bool.not_not]
    cases (f.mode != 0x01 || (s.port p).role == .supervisor) with
    | false => simp
    | true =>
      cases s.resolved f with
      | none => simp
      | some x =>
        simp [permits_eq, permitsPosted_eq, online_eq_takesRequests, hcode, requestOf, flagPosted]
        rfl

/-! ### The outcome of admission -/

variable {s p}

theorem admission_of_code {code : ReplyStatus} (h : s.submitCode p f = some code) :
    s.admission p f = .error code := by
  have hfirst : ((s.submitChecks p f).find? fun c => !c.1).map (·.2) = some code := h
  rw [admission_eq_guarded, guarded, hfirst]

theorem admission_of_no_code (h : s.submitCode p f = none) : s.admission p f = .ok (s.recorded f) := by
  have hfirst : ((s.submitChecks p f).find? fun c => !c.1).map (·.2) = none := h
  rw [admission_eq_guarded, guarded, hfirst]

/-- A request is recorded exactly when no check fails. -/
theorem admission_ok {r : Request} (h : s.admission p f = .ok r) : s.submitCode p f = none ∧ r = s.recorded f := by
  cases hcode : s.submitCode p f with
  | some code => simp [admission_of_code hcode] at h
  | none => exact ⟨rfl, by simpa [admission_of_no_code hcode] using h.symm⟩

/-- Where no code is answered every check passes. -/
theorem check_passes (h : s.submitCode p f = none) {c : Bool × ReplyStatus} (hc : c ∈ s.submitChecks p f) :
    c.1 = true := by
  have hall := List.find?_eq_none.mp (Option.map_eq_none_iff.mp h)
  simpa using hall c hc

/-- Without a failing check the kind byte names a kind (R6). -/
theorem kind_of_no_code (h : s.submitCode p f = none) : ∃ k, readKind f.kind = some k ∧ k.code = f.kind := by
  have hrange := check_passes h (c := (1 ≤ f.kind.toNat && f.kind.toNat ≤ 6, .badKind)) (by simp [submitChecks])
  rcases readKind_cases f.kind with ⟨-, hno⟩ | hk
  · exact absurd (by simpa using hrange) hno
  · exact hk

/-- Without a failing check a key is resolved (R9). -/
theorem resolved_of_no_code (h : s.submitCode p f = none) : ∃ x, s.resolved f = some x :=
  Option.isSome_iff_exists.mp
    (check_passes h (c := ((s.resolved f).isSome, .noRoute)) (by simp [submitChecks]))

/-- Without a failing check the tag is new, and there is a place for the request and for its record (R8, R13, R14). -/
theorem room_of_no_code (h : s.submitCode p f = none) : (s.port p).tagInUse f.tag = false ∧
    (s.port p).reqs.length < 16 ∧
    (flagPosted f.flags = false → (s.port p).results.length + (s.port p).reservations < 16) := by
  have htag := check_passes h (c := (!(s.port p).tagInUse f.tag, .tagInUse)) (by simp [submitChecks, tagInUse])
  have hplace := check_passes h (c := ((s.port p).reqs.length < 16, .queueFull)) (by simp [submitChecks])
  have hroom := check_passes h
    (c := (f.flags.getLsbD 0 || (s.port p).results.length + ((s.port p).reqs.filter (·.reservation)).length < 16,
      .resultSpace)) (by simp [submitChecks])
  refine ⟨by simpa using htag, by simpa using hplace, fun (hposted : f.flags.getLsbD 0 = false) => ?_⟩
  rw [hposted, Bool.false_or, decide_eq_true_eq] at hroom
  exact hroom

/-! ### SUBMIT -/

@[simp] theorem submitCode_noFrame (s : State) (p q : Port) (f : SubmitFields) :
    (s.noFrame p).submitCode q f = s.submitCode q f := by
  have hresolved : (s.noFrame p).resolved f = s.resolved f := rfl
  simp [submitCode, submitChecks, hresolved]

/-- The reply of a SUBMIT: the code and the tag (section 11.3). -/
theorem answer_submit (code : ReplyStatus) (tag : Byte) : answer .submit code [tag] = [code.code, tag] := rfl

/-- A refused SUBMIT changes nothing but the frame that holds its reply (R5, R155). -/
theorem exec_submit_error (h : s.running p = true) {code : ReplyStatus}
    (hcode : (s.noFrame p).admission p f = .error code) : exec (.submit p f) s = .next (s.modifyPort p fun ps =>
      answered ps .submit (11 + f.data.length) [code.code, f.tag] .none) := by
  have htake : execSubmit p f s = .next ((s.noFrame p).modifyPort p fun ps =>
      answered ps .submit (11 + f.data.length) (answer .submit code [f.tag]) .none) := by
    rw [noFrame] at hcode ⊢
    simp only [execSubmit, takeFrame, h, if_true, hcode]
    rfl
  rw [answer_submit, noFrame_modifyPort] at htake
  exact htake

/-- A SUBMIT that is admitted leaves its request at the tail, and its reply (R15, R35, R155). -/
theorem exec_submit_ok (h : s.running p = true) {r : Request} (hr : (s.noFrame p).admission p f = .ok r) :
    exec (.submit p f) s = .next (s.modifyPort p fun ps =>
      { answered ps .submit (11 + f.data.length) [ReplyStatus.ok.code, f.tag] .none with reqs := ps.reqs ++ [r] }) := by
  have htake : execSubmit p f s = .next (((s.noFrame p).addOpen p r).modifyPort p fun ps =>
      answered ps .submit (11 + f.data.length) (answer .submit .ok [f.tag]) .none) := by
    rw [noFrame] at hr ⊢
    simp only [execSubmit, takeFrame, h, if_true, hr]
    rfl
  rw [answer_submit, addOpen, modifyPort_modifyPort, noFrame_modifyPort] at htake
  exact htake

end State

/-- Settles O13: admission answers what the checks in order answer. -/
theorem submitIsRefusedByTheFirstFailingCheck : Obligations.SubmitIsRefusedByTheFirstFailingCheck := by
  intro s p f code hrun hcode
  exact exec_submit_error hrun (admission_of_code (by rw [submitCode_noFrame, hcode]))

/-- Settles O14: with no failing check admission records what the kind byte names and what check 5 resolves. -/
theorem submitAdmitsTheRequest : Obligations.SubmitAdmitsTheRequest := by
  intro s p f hrun hcode
  obtain ⟨k, hkind, hbyte⟩ := kind_of_no_code hcode
  obtain ⟨⟨key, route⟩, hresolved⟩ := resolved_of_no_code hcode
  refine ⟨k, key, route, hbyte, hresolved, ?_⟩
  have hrecorded : (s.noFrame p).recorded f = s.requestOf f k (key, route) := recorded_eq _ hkind hresolved
  rw [exec_submit_ok hrun (admission_of_no_code (by rw [submitCode_noFrame, hcode])), hrecorded, requestOf,
    effectiveLimit_eq]
  rfl

end Sys2Proof.Machine
end

section
/-! PROOF. The bounds of one port's requests, results, reservations and tags (R8, R13, R14), under each change of the
port. -/

namespace Sys2Proof.Machine

set_option Elab.async false

namespace State
open PortState

/-- Open requests leave the lane store, and at most records of the non-posted ones among them join the results. -/
theorem PortBounds.retire {ps ps' : PortState} (h : PortBounds ps) {gone : List Request} {records : List Result}
    (hreqs : (ps'.reqs ++ gone).Perm ps.reqs) (hresults : ps'.results = ps.results ++ records)
    (hrecords : (records.map (·.tag)).Sublist ((gone.filter (!·.posted)).map (·.tag))) : PortBounds ps' := by
  obtain ⟨hlen, hroom, hres, htags⟩ := h
  have hreqsLen : ps'.reqs.length + gone.length = ps.reqs.length := by simpa using hreqs.length_eq
  have hgone : gone.filter (·.reservation) = gone.filter (!·.posted) :=
    List.filter_congr fun r hr => hres r (hreqs.subset (by simp [hr]))
  have hreservations : ps'.reservations + (gone.filter (!·.posted)).length = ps.reservations := by
    simpa [PortState.reservations, ← hgone] using (hreqs.filter (·.reservation)).length_eq
  have hrecordsLen : records.length ≤ (gone.filter (!·.posted)).length := by simpa using hrecords.length_le
  refine ⟨by omega, by rw [hresults, List.length_append]; omega,
    fun r hr => hres r (hreqs.subset (by simp [hr])), ?_⟩
  have hleft : (ps'.reqs.map (·.tag) ++ ps'.results.map (·.tag)).Perm
      ((ps'.reqs.map (·.tag) ++ records.map (·.tag)) ++ ps.results.map (·.tag)) := by
    rw [hresults, List.map_append, List.append_assoc]
    exact List.perm_append_comm.append_left _
  have hsub : ((ps'.reqs.map (·.tag) ++ records.map (·.tag)) ++ ps.results.map (·.tag)).Sublist
      ((ps'.reqs ++ gone).map (·.tag) ++ ps.results.map (·.tag)) := by
    rw [List.map_append]
    exact ((hrecords.trans (List.filter_sublist.map _)).append_left _).append_right _
  exact hleft.nodup_iff.mpr ((((hreqs.map _).append_right _).nodup_iff.mpr htags).sublist hsub)

/-- The bounds speak of the open requests and the stored results alone. -/
theorem PortBounds.congr {ps ps' : PortState} (h : PortBounds ps) (hreqs : ps'.reqs = ps.reqs)
    (hresults : ps'.results = ps.results) : PortBounds ps' :=
  h.retire (gone := []) (records := []) (by simp [hreqs]) (by simp [hresults]) (by simp)

theorem PortBounds.reqTags_nodup {ps : PortState} (h : PortBounds ps) : (ps.reqs.map (·.tag)).Nodup := by
  obtain ⟨-, -, -, htags⟩ := h
  exact htags.of_append_left

/-- No two open requests share a tag (R8). -/
theorem PortBounds.eq_of_tag {ps : PortState} (h : PortBounds ps) {a b : Request} (ha : a ∈ ps.reqs)
    (hb : b ∈ ps.reqs) (e : a.tag = b.tag) : a = b :=
  List.inj_on_of_nodup_map h.reqTags_nodup ha hb e

/-- An open request completes: its reservation becomes the place of its record (R14, R43). -/
theorem PortBounds.complete {ps : PortState} (h : PortBounds ps) {r : Request} (hr : r ∈ ps.reqs) (e : Ending) :
    PortBounds (ps.complete r e) := by
  obtain ⟨x, before, after, -, hx, hsplit, herase⟩ :=
    List.exists_of_eraseP (p := fun x => x.tag == r.tag) hr (by simp)
  obtain rfl : x = r := h.eq_of_tag (by simp [hsplit]) hr (by simpa using hx)
  have hgone : ((ps.complete x e).reqs ++ [x]).Perm ps.reqs := by
    rw [complete_reqs, herase, hsplit]
    exact (List.perm_append_singleton x _).trans List.perm_middle.symm
  rcases complete_results ps x e with hsame | ⟨hposted, hrecord⟩
  · exact h.retire hgone (records := []) (by simp [hsame]) (by simp)
  · exact h.retire hgone hrecord (by simp [hposted, Ending.record])

/-- The requests that `sel` picks complete in one event (R43). -/
theorem PortBounds.completeAll {ps : PortState} (h : PortBounds ps) (sel : Request → Bool) (st : Status) :
    PortBounds (ps.completeAll sel st) := by
  have hgone : ((ps.completeAll sel st).reqs ++ ps.reqs.filter sel).Perm ps.reqs := by
    rw [completeAll_reqs]
    exact List.perm_append_comm.trans (List.filter_append_perm sel ps.reqs)
  cases hreset : ps.inReset
  · exact h.retire hgone (completeAll_results ps sel st hreset) (by simp [Ending.record, Function.comp_def])
  · exact h.retire hgone (records := []) (by simp [completeAll_results_inReset ps sel st hreset]) (by simp)

/-- Requests with different tags that are open complete one after another, or are left. -/
theorem PortBounds.foldl_complete {f : PortState → Request → PortState}
    (hf : ∀ ps r, f ps r = ps ∨ ∃ e, f ps r = ps.complete r e) {l : List Request} :
    ∀ {ps : PortState}, PortBounds ps → (l.map (·.tag)).Nodup → (∀ r ∈ l, r ∈ ps.reqs) → PortBounds (l.foldl f ps) := by
  induction l with
  | nil => intro ps h _ _; exact h
  | cons r l ih =>
    intro ps h htags hopen
    obtain ⟨hnew, htags⟩ := List.nodup_cons.mp htags
    have hrest : ∀ x ∈ l, x ∈ ps.reqs := fun x hx => hopen x (List.mem_cons_of_mem _ hx)
    rcases hf ps r with e | ⟨e, he⟩
    · rw [List.foldl_cons, e]
      exact ih h htags hrest
    · rw [List.foldl_cons, he]
      refine ih (h.complete (hopen r List.mem_cons_self) e) htags fun x hx => ?_
      have hne : x.tag ≠ r.tag := fun e => hnew (List.mem_map.mpr ⟨x, hx, e⟩)
      rw [complete_reqs]
      exact (List.mem_eraseP_of_neg (by simpa using hne)).mpr (hrest x hx)

/-- The HOLDs of a port that one event grants complete (R43, R131). -/
theorem PortBounds.grantAll {ps : PortState} (h : PortBounds ps) (served : List Waiter) :
    PortBounds (ps.grantAll served) := by
  refine PortBounds.foldl_complete (fun ps r => ?_) h h.reqTags_nodup fun _ hr => hr
  split
  · exact .inr ⟨_, rfl⟩
  · exact .inl rfl

/-- A request that changes its state stays where it is. -/
theorem PortBounds.setReqState {ps : PortState} (h : PortBounds ps) (tag : Byte) (st : ReqState) :
    PortBounds (ps.setReqState tag st) := by
  obtain ⟨hlen, hroom, hres, htags⟩ := h
  have hkeep {α : Type} (field : Request → α) (hf : ∀ r, field { r with state := st } = field r) :
      (ps.setReqState tag st).reqs.map field = ps.reqs.map field := by
    simp only [PortState.setReqState, List.map_map]
    refine List.map_congr_left fun r _ => ?_
    simp only [Function.comp_apply]
    split
    · exact hf r
    · rfl
  have hcount : (ps.setReqState tag st).reservations = ps.reservations := by
    have := congrArg (·.count true) (hkeep (·.reservation) fun _ => rfl)
    simpa [PortState.reservations, List.count_eq_length_filter, List.filter_map, Function.comp_def] using this
  refine ⟨by simpa [PortState.setReqState] using hlen, by rw [hcount]; exact hroom, ?_, ?_⟩
  · simp only [PortState.setReqState, List.mem_map]
    rintro _ ⟨r, hr, rfl⟩
    split <;> exact hres r hr
  · rw [hkeep (·.tag) fun _ => rfl]
    exact htags

/-- A request joins the open ones: its tag is new, and there is room for it and for its record (R8, R13, R14). -/
theorem PortBounds.append_request {ps : PortState} (h : PortBounds ps) {r : Request} (hnew : ps.tagInUse r.tag = false)
    (hplace : ps.reqs.length < 16) (hreservation : r.reservation = !r.posted)
    (hroom : r.posted = false → ps.results.length + ps.reservations < 16) :
    PortBounds { ps with reqs := ps.reqs ++ [r] } := by
  obtain ⟨-, hold, hres, htags⟩ := h
  simp only [tagInUse, Bool.or_eq_false_iff, List.any_eq_false, beq_iff_eq] at hnew
  obtain ⟨hreqs, hresults⟩ := hnew
  refine ⟨by simpa using hplace, ?_, ?_, ?_⟩
  · cases hp : r.posted
    · simpa [reservations, hreservation, hp, Nat.lt_iff_add_one_le, Nat.add_assoc] using hroom hp
    · simpa [reservations, hreservation, hp] using hold
  · simpa [or_imp, forall_and] using ⟨hres, hreservation⟩
  · have hperm : ((ps.reqs ++ [r]).map (·.tag) ++ ps.results.map (·.tag)).Perm
        (r.tag :: (ps.reqs.map (·.tag) ++ ps.results.map (·.tag))) := by
      simp
    rw [hperm.nodup_iff, List.nodup_cons]
    refine ⟨?_, htags⟩
    simpa using ⟨hreqs, hresults⟩

/-- The oldest record leaves the result queue (R134). -/
theorem PortBounds.tail_results {ps : PortState} (h : PortBounds ps) :
    PortBounds { ps with results := ps.results.tail } := by
  obtain ⟨hlen, hroom, hres, htags⟩ := h
  refine ⟨hlen, ?_, hres, htags.sublist (((List.tail_sublist _).map _).append_left _)⟩
  simp only [List.length_tail, reservations] at hroom ⊢
  omega

/-- A port with nothing open and nothing stored. -/
theorem PortBounds.of_empty {ps : PortState} (hreqs : ps.reqs = []) (hresults : ps.results = []) : PortBounds ps := by
  simp [PortBounds, reservations, hreqs, hresults]

end State

end Sys2Proof.Machine
end

section
/-! PROOF. The bounds of every port under each operation of the hub. -/

namespace Sys2Proof.Machine

set_option Elab.async false

namespace State
open PortState

variable {s t : State}

/-! ### Updates of the state -/

theorem RequestBounds.keeps {l : List Part} (h : RequestBounds s) (k : Keeps s t l) (m : .ports ∉ l := by decide) :
    RequestBounds t := fun p => (k.port p m).symm ▸ h p

theorem RequestBounds.mapPorts (h : RequestBounds s) {f : Port → PortState → PortState}
    (hf : ∀ p ps, PortBounds ps → PortBounds (f p ps)) : RequestBounds (s.mapPorts f) := by
  intro p
  rw [mapPorts_port]
  exact hf p _ (h p)

theorem RequestBounds.modifyPort (h : RequestBounds s) {p : Port} {f : PortState → PortState}
    (hf : PortBounds (s.port p) → PortBounds (f (s.port p))) : RequestBounds (s.modifyPort p f) := by
  intro q
  rw [modifyPort_port]
  split
  · next e => exact e ▸ hf (h p)
  · exact h q

/-- A change of a port that leaves its open requests and its results. -/
theorem RequestBounds.modifyPort_congr (h : RequestBounds s) {p : Port} {f : PortState → PortState}
    (hreqs : (f (s.port p)).reqs = (s.port p).reqs) (hresults : (f (s.port p)).results = (s.port p).results) :
    RequestBounds (s.modifyPort p f) := h.modifyPort (·.congr hreqs hresults)

theorem RequestBounds.foldl {α : Type} {f : State → α → State}
    (hf : ∀ s a, RequestBounds s → RequestBounds (f s a)) (l : List α) :
    ∀ {s : State}, RequestBounds s → RequestBounds (l.foldl f s) := by
  induction l with
  | nil => intro s h; exact h
  | cons a l ih => intro s h; exact ih (hf s a h)

/-! ### Requests and holds -/

theorem mem_of_find {ps : PortState} {tag : Byte} {r : Request} (h : ps.find tag = some r) : r ∈ ps.reqs :=
  List.mem_of_find?_eq_some h

theorem RequestBounds.completeReq (h : RequestBounds s) {p : Port} {r : Request} (hr : r ∈ (s.port p).reqs)
    (e : Ending) : RequestBounds (s.completeReq p r e) := h.modifyPort fun b => b.complete hr e

theorem RequestBounds.addHoldEnd (h : RequestBounds s) (p : Port) (e : HoldEnd) :
    RequestBounds (s.modifyPort p (·.addHoldEnd e)) := h.modifyPort_congr (by simp) (by simp)

theorem RequestBounds.handOver (h : RequestBounds s) (i : HoldIdx) : RequestBounds (s.handOver i) := by
  unfold State.handOver
  split
  · exact h
  · next e _ =>
    have hset : RequestBounds (s.setHold i e.handedOver) := h.keeps (setHold_keeps ..)
    split
    · exact hset
    · dsimp only
      split
      · next hfind => exact hset.completeReq (mem_of_find hfind) _
      · exact hset

theorem RequestBounds.expire (h : RequestBounds s) (i : HoldIdx) : RequestBounds (s.expire i) := by
  unfold State.expire
  split
  · exact h
  · exact (h.addHoldEnd _ _).handOver i

theorem RequestBounds.decreaseHold (h : RequestBounds s) (i : HoldIdx) : RequestBounds (s.decreaseHold i) := by
  unfold State.decreaseHold
  split
  · exact h
  · split
    · exact h.keeps (setHold_keeps ..)
    · exact h.expire i

theorem settleable_mem {p : Port} {g : Seg} {k : Kind} {r : Request} (h : s.settleable p g k = some r) :
    r ∈ (s.port p).reqs := by
  unfold settleable at h
  split at h
  · next x hx =>
    obtain ⟨-, rfl⟩ : x.kind = k ∧ x = r := by simpa using h
    exact readyHead_mem hx
  · simp at h

theorem RequestBounds.settleHold (h : RequestBounds s) {p : Port} {r : Request} (hr : r ∈ (s.port p).reqs) :
    RequestBounds (s.settleHold p r) := by
  have hset (i : HoldIdx) (x : Option HoldEntry) : RequestBounds (s.setHold i x) := h.keeps (setHold_keeps ..)
  unfold State.settleHold
  dsimp only
  split
  · split
    · split
      · exact h.completeReq hr _
      · exact (hset _ _).modifyPort (·.setReqState _ _)
    · exact h
  · split
    · exact (hset _ _).completeReq hr _
    · exact h.completeReq hr _

/-- A hand-over completes a waiter's HOLD, and the waiters never name the holder (R54): the holder's requests stay. -/
theorem handOver_port_holder (h : WaitersSound s) {i : HoldIdx} {e : HoldEntry} (he : s.hold i = some e) :
    (s.handOver i).port e.holder = s.port e.holder := by
  obtain ⟨hentries, -⟩ := h
  obtain ⟨-, hholder, -⟩ := hentries i e he
  simp only [handOver, he]
  split
  · rfl
  · next w ws hw =>
    have hne : w.port ≠ e.holder := fun eq => hholder (by simp [hw, eq])
    split
    · rw [completeReq_port_ne _ hne, setHold_port]
    · rfl

theorem RequestBounds.settleRelease (h : RequestBounds s) (hw : WaitersSound s) {p : Port} {r : Request}
    (hr : r ∈ (s.port p).reqs) : RequestBounds (s.settleRelease p r) := by
  unfold State.settleRelease
  split
  · next i _ =>
    split
    · next hholder =>
      obtain ⟨e, he, rfl⟩ := Option.map_eq_some_iff.mp hholder
      exact (h.handOver i).completeReq ((handOver_port_holder hw he).symm ▸ hr) _
    · exact h.completeReq hr _
  · exact h.completeReq hr _

/-! ### Polls -/

theorem RequestBounds.addNotices (h : RequestBounds s) (sel : Port → Bool) (n : NoticeSets) :
    RequestBounds (s.mapPorts fun p ps => if sel p then ps.addNotices n else ps) :=
  h.mapPorts fun p ps b => by
    split
    · exact b.congr (addNotices_reqs ..) (addNotices_results ..)
    · exact b

theorem RequestBounds.completePoll (h : RequestBounds s) (n : PollIdx) (st : Status) (data : List Byte) :
    RequestBounds (s.completePoll n st data) := by
  unfold State.completePoll
  dsimp only
  split
  · exact h.keeps (setPoll_keeps ..)
  · refine RequestBounds.keeps ?_ (setPoll_keeps ..)
    split
    · exact h.addNotices _ _
    · exact h

theorem RequestBounds.becomeDue (h : RequestBounds s) (n : PollIdx) : RequestBounds (s.becomeDue n) := by
  unfold State.becomeDue
  dsimp only
  split
  · exact h.keeps (setPoll_keeps ..)
  · split
    · exact (h.keeps (setPoll_keeps ..)).completePoll _ _ _
    · exact (h.keeps (setPoll_keeps ..)).keeps (setDue_keeps ..)

theorem RequestBounds.countdown (h : RequestBounds s) (n : PollIdx) : RequestBounds (s.countdown n) := by
  unfold State.countdown
  dsimp only
  split
  · split
    · exact h.keeps (setPoll_keeps ..)
    · exact h.becomeDue n
  · exact h

/-! ### Segments going offline and the ends of transactions -/

theorem RequestBounds.endHolds (h : RequestBounds s) (g : Seg) : RequestBounds (s.endHolds g) := by
  refine RequestBounds.foldl (fun s i h => ?_) _ h
  split
  · split
    · exact (h.addHoldEnd _ _).keeps (setHold_keeps ..)
    · exact h
  · exact h

theorem RequestBounds.segmentNotice (h : RequestBounds s) (g : Seg) : RequestBounds (s.segmentNotice g) :=
  h.mapPorts fun _ _ b => b.congr (addNotices_reqs ..) (addNotices_results ..)

theorem RequestBounds.goOffline (h : RequestBounds s) (g : Seg) : RequestBounds (s.goOffline g) := by
  have hdrained : RequestBounds ((s.endHolds g).drainLanes g) := (h.endHolds g).mapPorts fun _ _ b => b.completeAll ..
  exact (hdrained.keeps (drainDue_keeps ..)).segmentNotice g

theorem RequestBounds.enterDisabled (h : RequestBounds s) (g : Seg) : RequestBounds (s.enterDisabled g) :=
  (h.keeps (setEngine_keeps ..)).goOffline g

theorem RequestBounds.enterFaulted (h : RequestBounds s) (g : Seg) (reason : FaultReason) :
    RequestBounds (s.enterFaulted g reason) :=
  (h.keeps (setEngine_keeps ..)).goOffline g

theorem RequestBounds.tryRecovery (h : RequestBounds s) (g : Seg) : RequestBounds (s.tryRecovery g) := by
  unfold State.tryRecovery
  dsimp only
  split
  · exact h.keeps (setEngine_keeps ..)
  · exact h.enterFaulted _ _

theorem RequestBounds.leaveTo (h : RequestBounds s) (g : Seg) (next : EngineState) :
    RequestBounds (s.leaveTo g next) := by
  unfold State.leaveTo
  split
  · exact h.enterDisabled g
  · exact h.keeps (setEngineState_keeps ..)

theorem RequestBounds.afterPulse (h : RequestBounds s) (g : Seg) (n : Nat) (hub sda : Bool) :
    RequestBounds (s.afterPulse g n hub sda) := by
  unfold State.afterPulse
  split
  · exact h.keeps (enterChecking_keeps ..)
  · split
    · exact h.keeps (setEngineState_keeps ..)
    · split
      · exact h.keeps (setEngineState_keeps ..)
      · exact h.enterFaulted _ _

theorem inFlightReq_mem {p : Port} {g : Seg} {r : Request} (h : s.inFlightReq p g = some r) :
    r ∈ (s.port p).reqs := List.mem_of_find?_eq_some h

theorem RequestBounds.handOutcome (h : RequestBounds s) (g : Seg) (c : Carrier) (e : Ending) :
    RequestBounds (s.handOutcome g c e) := by
  unfold State.handOutcome
  split
  · split
    · next hr => exact h.completeReq (inFlightReq_mem hr) e
    · exact h
  · exact h.completePoll _ _ _
  · exact h

theorem RequestBounds.endTransaction (h : RequestBounds s) (g : Seg) (x : Transaction) (e : Ending) :
    RequestBounds (s.endTransaction g x e) := by
  have hcounted : RequestBounds ((s.count g (countEnd e.status)).clearTries g) :=
    (h.keeps (count_keeps ..)).keeps (setEngine_keeps ..)
  exact (hcounted.handOutcome _ _ _).leaveTo _ _

theorem RequestBounds.conflict (h : RequestBounds s) (g : Seg) (x : Transaction) (acks : List Bool) :
    RequestBounds (s.conflict g x acks) :=
  ((h.keeps (count_keeps ..)).handOutcome _ _ _).leaveTo _ _

theorem RequestBounds.expireLimit (h : RequestBounds s) (g : Seg) (x : Transaction) (acks : List Bool) :
    RequestBounds (s.expireLimit g x acks) := by
  unfold State.expireLimit
  dsimp only
  split
  · exact ((h.keeps (count_keeps ..)).handOutcome _ _ _).enterDisabled g
  · exact ((h.keeps (count_keeps ..)).handOutcome _ _ _).tryRecovery g

/-! ### Arbitration -/

theorem portCandidate_mem {g : Seg} {p : Port} {r : Request} (h : s.portCandidate g p = some r) :
    r ∈ (s.port p).reqs := by
  unfold portCandidate at h
  split at h
  · next x hx =>
    obtain ⟨-, rfl⟩ := by simpa only [Option.ite_none_right_eq_some, Option.some.injEq] using h
    exact readyHead_mem hx
  · simp at h

/-- A request that a contender offers is an open request of its port. -/
theorem candidate_request_mem {g : Seg} {c : Contender} {p : Port} {r : Request}
    (h : s.candidate g c = some (.request p r)) : r ∈ (s.port p).reqs := by
  unfold candidate at h
  split at h
  · obtain ⟨x, hx, e⟩ := Option.map_eq_some_iff.mp h
    cases e
    exact portCandidate_mem hx
  · simp at h

theorem RequestBounds.grant (h : RequestBounds s) (g : Seg) (c : Candidate) : RequestBounds (s.grant g c) := by
  cases c with
  | request p r => exact RequestBounds.keeps (h.modifyPort (·.setReqState _ _)) (setEngine_keeps ..)
  | poll n => exact ((h.keeps (setDue_keeps ..)).keeps (setPoll_keeps ..)).keeps (setEngine_keeps ..)

theorem RequestBounds.runDecision (g : Seg) (fuel : Nat) :
    ∀ {s : State}, RequestBounds s → RequestBounds (State.runDecision g fuel s) := by
  induction fuel with
  | zero => intro s h; exact h
  | succ fuel ih =>
    intro s h
    have harbiter (a : Arbiter) : RequestBounds (s.setArbiter g a) := h.keeps (setArbiter_keeps ..)
    unfold State.runDecision
    split
    · exact h
    · split
      · exact h
      · next hc =>
        split
        · exact ih ((harbiter _).completeReq (candidate_request_mem hc) _)
        · exact (harbiter _).grant _ _
      · exact (harbiter _).grant _ _

/-! ### Semaphores and resets -/

theorem RequestBounds.freeSem (h : RequestBounds s) (n : SemIdx) : RequestBounds (s.freeSem n) :=
  (h.keeps (setSem_keeps ..)).addNotices _ _

theorem RequestBounds.semBreak (h : RequestBounds s) (i : SemIdx) : RequestBounds (s.semBreak i).1 := by
  unfold State.semBreak
  split
  · exact (h.freeSem i).modifyPort_congr (addNotices_reqs ..) (addNotices_results ..)
  · exact h

theorem RequestBounds.semGive (h : RequestBounds s) (p : Port) (i : SemIdx) : RequestBounds (s.semGive p i).1 := by
  unfold State.semGive
  split
  · exact h.freeSem i
  · exact h

theorem RequestBounds.freeOwned (h : RequestBounds s) (p : Port) : RequestBounds (s.freeOwned p) := by
  refine RequestBounds.foldl (fun s n h => ?_) _ h
  split
  · exact h.freeSem n
  · exact h

theorem RequestBounds.handOverAll (h : RequestBounds s) (p : Port) : RequestBounds (s.handOverAll p) := by
  intro q
  rw [handOverAll_port]
  exact (h q).grantAll _

theorem RequestBounds.resetPort (h : RequestBounds s) (p : Port) : RequestBounds (s.resetPort p) := by
  have hcleared : RequestBounds (s.modifyPort p clearedPort) := h.modifyPort fun _ => .of_empty rfl rfl
  have hcut := (hcleared.keeps (mapEngines_keeps _ (Engine.cutPort p s.freeCount))).keeps (draw_keeps _)
  have hserved := (hcut.keeps (dropWaiters_keeps _ p fun _ => true)).handOverAll p
  exact ((hserved.keeps (mapArbiters_keeps ..)).keeps (dropInterest_keeps ..)).freeOwned p

theorem RequestBounds.setPrst (h : RequestBounds s) (p : Port) (low : Bool) : RequestBounds (s.setPrst p low) :=
  h.modifyPort_congr rfl rfl

theorem RequestBounds.hubReset (s : State) : RequestBounds s.hubReset := by
  have hcleared : RequestBounds s.hubCleared := fun p => by
    have hport : s.hubCleared.port p = (s.port p).hubReset := mapPorts_port s (fun _ ps => ps.hubReset) p
    rw [hport]
    exact .of_empty rfl rfl
  refine RequestBounds.foldl (fun t g h => ?_) _ hcleared
  split
  · exact h.segmentNotice g
  · exact h

/-! ### Routes and CANCEL -/

theorem RequestBounds.sweep (h : RequestBounds s) (i : RouteIdx) : RequestBounds (s.sweep i) := by
  refine RequestBounds.keeps (RequestBounds.foldl (fun s p h => ?_) _ h) (sweepPolls_keeps ..)
  exact (h.keeps (dropWaiters_keeps ..)).modifyPort (·.completeAll ..)

theorem RequestBounds.routeSet (h : RequestBounds s) (i : RouteIdx) (f : RouteFields) :
    RequestBounds (s.routeSet i f).state := by
  unfold State.routeSet
  split
  · exact h
  · split
    · exact h
    · split
      · exact (h.keeps (setRoute_keeps ..)).sweep i
      · exact h.keeps (setRoute_keeps ..)

theorem RequestBounds.routeClear (h : RequestBounds s) (i : RouteIdx) : RequestBounds (s.routeClear i).state := by
  unfold State.routeClear
  split
  · exact (h.keeps (setRoute_keeps ..)).sweep i
  · exact h

theorem RequestBounds.cancelReq (h : RequestBounds s) (p : Port) (tag : Byte) :
    RequestBounds (s.cancelReq p tag).1 := by
  unfold State.cancelReq
  split
  · exact h
  · next hfind =>
    split
    · exact h.completeReq (mem_of_find hfind) _
    · exact (h.keeps (dropWaiters_keeps ..)).completeReq (mem_of_find hfind) _
    · exact h

end State

end Sys2Proof.Machine
end

section
/-! PROOF. The bounds of every port under each command and each step. -/

namespace Sys2Proof.Machine

set_option Elab.async false

open State PortState

namespace State

variable {s t : State} {p : Port}

/-! ### Frames and events -/

theorem RequestBounds.noFrame (h : RequestBounds s) (p : Port) : RequestBounds (s.noFrame p) :=
  h.modifyPort_congr rfl rfl

theorem RequestBounds.takeFrame (h : RequestBounds s) {k : Option FrameKind} {n : Nat} {act : State → Answer}
    (hact : ∀ s, RequestBounds s → RequestBounds (act s).state) : RequestBounds (Machine.takeFrame p k n act s) := by
  unfold Machine.takeFrame
  split
  · exact (hact _ (h.noFrame p)).modifyPort_congr rfl rfl
  · exact h

theorem RequestBounds.frameOf (h : RequestBounds s) {k : FrameKind} {act : State → Answer}
    (hact : ∀ s, RequestBounds s → RequestBounds (act s).state) : RequestBounds (Machine.frameOf p k act s) :=
  h.takeFrame hact

theorem RequestBounds.frameEnd (h : RequestBounds s) {k : FrameKind} {act : Snapshot → State → State}
    (hact : ∀ x s, RequestBounds s → RequestBounds (act x s)) : RequestBounds (Machine.frameEnd p k act s) := by
  unfold Machine.frameEnd
  split
  · split
    · exact hact _ _ (h.noFrame p)
    · exact h
  · exact h

theorem RequestBounds.hubEvent (h : RequestBounds s) {act : State → State}
    (hact : RequestBounds (act s)) : RequestBounds (Machine.hubEvent act s) := by
  unfold Machine.hubEvent
  split
  · exact h
  · exact hact

theorem RequestBounds.withClaim (h : RequestBounds s) {k : FrameKind} {act : Answer}
    (hact : RequestBounds act.state) : RequestBounds (Machine.withClaim p k s act).state := by
  unfold Machine.withClaim
  split
  · exact hact
  · exact h

theorem RequestBounds.withIndex (h : RequestBounds s) {n : Nat} {b : Byte} {k : FrameKind} {act : Fin n → Answer}
    (hact : ∀ i, RequestBounds (act i).state) : RequestBounds (Machine.withIndex n b k s act).state := by
  unfold Machine.withIndex
  split
  · exact hact _
  · exact h

/-- A frame that needs the claim and names something by an index. -/
theorem RequestBounds.claimedFrame (h : RequestBounds s) {n : Nat} {b : Byte} {k : FrameKind}
    {act : State → Fin n → Answer} (hact : ∀ s i, RequestBounds s → RequestBounds (act s i).state) :
    RequestBounds (Machine.frameOf p k (fun s => Machine.withClaim p k s (Machine.withIndex n b k s (act s))) s) :=
  h.frameOf fun s h => h.withClaim (h.withIndex fun i => hact s i h)

/-! ### The blocks of the commands -/

theorem RequestBounds.segmentDisable (h : RequestBounds s) (g : Seg) :
    RequestBounds (s.segmentDisable g).state := by
  unfold State.segmentDisable
  split
  · exact h
  iterate 4
    · exact h.enterDisabled g
  iterate 3
    · exact h.keeps (setEngine_keeps ..)

theorem RequestBounds.segmentRestore (h : RequestBounds s) (g : Seg) :
    RequestBounds (s.segmentRestore g).state := by
  unfold State.segmentRestore
  split
  · exact (h.keeps (setEngine_keeps ..)).segmentNotice g
  · exact h

theorem RequestBounds.segmentSet (h : RequestBounds s) (g : Seg) (f : SegmentFields) :
    RequestBounds (s.segmentSet g f).state := by
  unfold State.segmentSet
  split
  · exact h
  · exact (h.keeps (setEngine_keeps ..)).keeps (setArbiter_keeps ..)

theorem RequestBounds.pollSet (h : RequestBounds s) (n : PollIdx) (f : PollFields) :
    RequestBounds (s.pollSet n f).state := by
  unfold State.pollSet
  split
  · exact h
  · split
    · exact (h.keeps (undue_keeps ..)).keeps (setPoll_keeps ..)
    · exact h

theorem RequestBounds.pollStart (h : RequestBounds s) (n : PollIdx) : RequestBounds (s.pollStart n).state := by
  unfold State.pollStart
  dsimp only
  split
  · dsimp only
    split
    · exact h
    · exact h.keeps (setPoll_keeps ..)
  · exact h

theorem RequestBounds.fetchRemoval (h : RequestBounds s) (p : Port) (x : Snapshot) :
    RequestBounds (Machine.fetchRemoval p x s) := by
  unfold Machine.fetchRemoval
  split
  · refine h.modifyPort fun b => ?_
    split
    · exact b.tail_results
    · exact b
  · exact h

theorem RequestBounds.postedFaultRemoval (h : RequestBounds s) (p : Port) (x : Snapshot) :
    RequestBounds (Machine.postedFaultRemoval p x s) := by
  unfold Machine.postedFaultRemoval
  split
  · exact h.modifyPort_congr rfl rfl
  · exact h

theorem RequestBounds.holdEndsRemoval (h : RequestBounds s) (p : Port) (x : Snapshot) :
    RequestBounds (Machine.holdEndsRemoval p x s) := by
  unfold Machine.holdEndsRemoval
  split
  · exact h.modifyPort_congr rfl rfl
  · exact h

theorem RequestBounds.noticesRemoval (h : RequestBounds s) (p : Port) (x : Snapshot) :
    RequestBounds (Machine.noticesRemoval p x s) := by
  unfold Machine.noticesRemoval
  split
  · exact h.modifyPort_congr rfl rfl
  · exact h

/-! ### Every command -/

theorem RequestBounds.next (h : RequestBounds s) {u : State}
    (e : (.next s : Host.Outcome State Fault Refusal) = .next u) : RequestBounds u := by
  cases e
  exact h

/-- Every command keeps the bounds; a RELEASE needs that no hold waits for its own holder (R54). -/
theorem RequestBounds.exec (h : RequestBounds s) (hw : WaitersSound s) {c : Instr}
    (e : Machine.exec c s = .next t) : RequestBounds t := by
  cases c with
  | lineLowInIdle | freeWindowComplete | freeWindowRestart | recoverySclHigh | ageIncrease =>
    exact h.keeps (exec_keeps e) (by simp [changes])
  | submit p f =>
    refine (h.takeFrame fun s h => ?_).next e
    split
    · next r hr =>
      obtain ⟨hcode, rfl⟩ := admission_ok hr
      obtain ⟨htag, hplace, hroom⟩ := room_of_no_code hcode
      exact h.modifyPort (·.append_request htag hplace rfl hroom)
    · exact h
  | cancel p tag => exact (h.frameOf fun _ h => h.cancelReq p tag).next e
  | laneInspect | hubInfo | portReset | holdEnds | notices => exact (h.frameOf fun _ h => h).next e
  | fetch | postedFault =>
    refine (h.frameOf fun s h => ?_).next e
    split <;> exact h
  | causes p clear =>
    refine (h.frameOf fun s h => ?_).next e
    dsimp only
    split
    · exact h.modifyPort_congr rfl rfl
    · exact h
  | causeMask p mask => exact (h.frameOf fun _ h => h.modifyPort_congr rfl rfl).next e
  | fetchNormalEnd p => exact (h.frameEnd fun x _ h => h.fetchRemoval p x).next e
  | postedFaultNormalEnd p => exact (h.frameEnd fun x _ h => h.postedFaultRemoval p x).next e
  | holdEndsNormalEnd p => exact (h.frameEnd fun x _ h => h.holdEndsRemoval p x).next e
  | noticesNormalEnd p => exact (h.frameEnd fun x _ h => h.noticesRemoval p x).next e
  | semTake p n =>
    refine (h.frameOf fun s h => ?_).next e
    split
    · exact h
    · exact h.keeps (semTake_keeps ..)
  | semGive p n =>
    refine (h.frameOf fun s h => ?_).next e
    split
    · exact h
    · exact h.semGive p _
  | semBreak p n =>
    refine (h.frameOf fun s h => ?_).next e
    split
    · exact h
    · split
      · exact h
      · exact h.semBreak _
  | routeSet p f => exact (h.claimedFrame fun _ i h => h.routeSet i f).next e
  | routeClear p index => exact (h.claimedFrame fun _ i h => h.routeClear i).next e
  | routeGet | pollGet | pollRead => exact (h.frameOf fun _ h => h.withIndex fun _ => h).next e
  | pollSet p f => exact (h.claimedFrame fun _ n h => h.pollSet n f).next e
  | pollStart p index => exact (h.claimedFrame fun _ n h => h.pollStart n).next e
  | pollStop p index =>
    exact (h.claimedFrame fun _ n h => (h.keeps (undue_keeps ..)).keeps (setPoll_keeps ..)).next e
  | segmentSet p f => exact (h.claimedFrame fun _ g h => h.segmentSet g f).next e
  | segmentGet p g => exact (h.frameOf fun _ h => h.withIndex fun _ => h.keeps (look_keeps ..)).next e
  | segmentDisable p g => exact (h.claimedFrame fun _ g h => h.segmentDisable g).next e
  | segmentRestore p g => exact (h.claimedFrame fun _ g h => h.segmentRestore g).next e
  | statsClear p g => exact (h.claimedFrame fun _ _ h => h.keeps (setEngine_keeps ..)).next e
  | hubReset p =>
    refine (h.frameOf fun s h => ?_).next e
    split
    · exact h
    · exact h.withClaim h
  | portResetNormalEnd p => exact (h.frameEnd fun _ _ h => h.resetPort p).next e
  | hubResetNormalEnd p =>
    refine (h.frameEnd fun x s h => ?_).next e
    split
    · exact .hubReset s
    · exact h
  | badFrame p kind => exact (h.takeFrame fun _ h => h.modifyPort_congr rfl rfl).next e
  | framingError p | frameEndsEarly p =>
    refine RequestBounds.next ?_ e
    split
    · exact h.modifyPort_congr rfl rfl
    · exact h
  | prstxnFall p =>
    refine RequestBounds.next ?_ e
    split
    · exact (h.resetPort p).setPrst p true
    · exact h.setPrst p true
  | prstxnRise p =>
    refine RequestBounds.next ?_ e
    split
    · exact h.setPrst p false
    · exact h
  | resetnFall =>
    have hports : RequestBounds (s.mapPorts fun _ ps => { ps with frame := none }) :=
      h.mapPorts fun _ _ b => b.congr rfl rfl
    refine RequestBounds.next (fun p => ?_) e
    exact hports p
  | resetnRise a b c =>
    refine RequestBounds.next (fun p => ?_) e
    fin_cases p <;> exact .of_empty rfl rfl
  | arbiterDecision g =>
    refine (h.hubEvent ?_).next e
    split
    · exact .runDecision g _ h
    · exact h
  | holdSettlement p g =>
    refine (h.hubEvent ?_).next e
    split
    · next hr => exact h.settleHold (settleable_mem hr)
    · exact h
  | releaseSettlement p g =>
    refine (h.hubEvent ?_).next e
    split
    · next hr => exact h.settleRelease hw (settleable_mem hr)
    · exact h
  | holdDecrease i => exact (h.hubEvent (h.decreaseHold i)).next e
  | holdExpiry i =>
    refine (h.hubEvent ?_).next e
    split
    · split
      · exact h.expire i
      · exact h
    · exact h
  | transactionEnd g acks data =>
    refine (h.hubEvent ?_).next e
    split
    · split
      · exact h
      · exact h.endTransaction g _ _
    · exact h
  | lineConflict g acks =>
    refine (h.hubEvent ?_).next e
    split
    · exact h.conflict g _ acks
    · exact h
  | timeout g acks =>
    refine (h.hubEvent ?_).next e
    split
    · exact h.expireLimit g _ acks
    · exact h
  | cutEnd g =>
    refine (h.hubEvent ?_).next e
    split
    · split
      · exact h.leaveTo g _
      all_goals exact h
    · exact h
  | limitWindowEnd g =>
    refine (h.hubEvent ?_).next e
    split
    · exact h.tryRecovery g
    · exact h
  | recoverySclTimeout g =>
    refine (h.hubEvent ?_).next e
    split
    · split
      · exact h.enterDisabled g
      · exact h.enterFaulted g _
    · exact h
  | recoveryPulseEnd g sda =>
    refine (h.hubEvent ?_).next e
    split
    · split
      · exact h.enterDisabled g
      · exact h.afterPulse g _ _ sda
    · exact h
  | recoveryStopEnd g =>
    refine (h.hubEvent ?_).next e
    split
    · exact h.leaveTo g _
    · exact h
  | pollCountdown n => exact (h.hubEvent (h.countdown n)).next e
  | pollDue n =>
    refine (h.hubEvent ?_).next e
    split
    · exact h.becomeDue n
    · exact h

/-- The hub's own agents count a mark and fill the queue; they touch no port (log 1). -/
theorem idle_port (s : State) (p : Port) : s.idle.port p = s.port p := by
  unfold idle
  split
  · rfl
  · split <;> rfl

end State

/-- Settles O53: a completion trades a request and its reservation for at most one record with its tag, an admission
passes the checks that make room, and no other change lengthens either list. A RELEASE completes after its
hold is handed over, which the soundness of the waiters keeps away from the released request. -/
theorem stepKeepsRequestBounds : Obligations.StepKeepsRequestBounds := by
  intro s t h _ _ hw e
  unfold step at e
  split at e
  · refine RequestBounds.next (fun p => ?_) e
    rw [idle_port]
    exact h p
  · next rest _ => exact RequestBounds.exec (s := { s with pending := rest }) h hw e

end Sys2Proof.Machine
end

section
/-! PROOF. What a pin reset leaves, and that it meets every invariant (R163). -/

namespace Sys2Proof.Machine

set_option Elab.async false

namespace State

variable {s t : State} {roles : Port → Role} {low : Port → Bool}

/-! ### The pin-reset values -/

/-- A hub whose ports have their pin-reset values has those of every block (R34, R87, R111, R130, R153). -/
theorem pinReset_values {ports : Vector PortState 3} (hports : ∀ q : Port, ports[q] = .pinReset (roles q) (low q))
    (freeCount : Nat) (pending : List Instr) : PinResetValues (.pinReset ports freeCount pending) roles low where
  held := rfl
  ports q := hports q
  routes i := Vector.getElem_replicate i.isLt
  holds i := Vector.getElem_replicate i.isLt
  arbiters g := Vector.getElem_replicate g.isLt
  engines g := Vector.getElem_replicate g.isLt
  due g := Vector.getElem_replicate g.isLt
  polls n := Vector.getElem_replicate n.isLt
  sems n := Vector.getElem_replicate n.isLt
  tenth := rfl

/-- The rise of RESETN samples the roles and the PRSTxN levels (R159, R162, R163). -/
theorem exec_resetnRise_values (s : State) (high : Vector Bool 3) :
    ∃ t, exec (.resetnRise high[0] high[1] high[2]) s = .next t ∧
      PinResetValues t (fun p => if high[p] then .supervisor else .member) (fun p => (s.port p).inReset) := by
  refine ⟨_, rfl, pinReset_values (fun q => ?_) _ _⟩
  match q with
  | 0 | 1 | 2 => rfl

/-- State.reset is a hub after a pin reset with every PRSTxN high (log 4, log 5). -/
theorem reset_values : PinResetValues State.reset (fun p => resetRoles[p]) fun _ => false := by
  refine pinReset_values (fun q => ?_) _ _
  match q with
  | 0 | 1 | 2 => rfl

/-- The fall of RESETN holds the hub and abandons the frames in progress; the model keeps the rest (R163, log 6). -/
theorem exec_resetnFall_keeps (s : State) :
    ∃ t, exec .resetnFall s = .next t ∧ Keeps s t [.held, .ports] ∧ t.held = true ∧
      ∀ p, t.port p = { s.port p with frame := none } :=
  ⟨_, rfl, exec_keeps (c := .resetnFall) rfl, rfl, fun p => mapPorts_port s (fun _ ps => { ps with frame := none }) p⟩

/-! ### The invariants after a pin reset -/

namespace PinResetValues

theorem aliasesUnique (h : PinResetValues t roles low) : AliasesUnique t := by
  intro i j hvalid
  simp [h.routes] at hvalid

theorem semaphoresSound (h : PinResetValues t roles low) : SemaphoresSound t := by
  simp [SemaphoresSound, h.sems]

theorem requestBounds (h : PinResetValues t roles low) : RequestBounds t :=
  fun p => PortBounds.of_empty (by rw [h.ports]) (by rw [h.ports])

/-- Every engine is CHECKING, with no disable pending (R111). -/
theorem engine_state (h : PinResetValues t roles low) (g : Seg) : (t.engine g).state = .checking 0 0 := by
  rw [h.engines]

theorem enginesSound (h : PinResetValues t roles low) : EnginesSound t := by
  intro g
  simp [h.engines]

theorem costsBounded (h : PinResetValues t roles low) : CostsBounded t := by
  simp [CostsBounded, h.ports, h.polls]

theorem deficitBounds (h : PinResetValues t roles low) : DeficitBounds t := by
  refine ⟨h.costsBounded, fun g => ?_⟩
  rw [h.arbiters]
  unfold ArbiterSound
  decide

/-- No engine carries a transaction (R111). -/
theorem carriesPoll_eq_false (h : PinResetValues t roles low) (g : Seg) (n : PollIdx) : t.carriesPoll g n = false := by
  rw [carriesPoll, h.engine_state]

theorem dueSound (h : PinResetValues t roles low) : DueSound t := by
  simp [DueSound, allDue, h.due, h.polls, h.carriesPoll_eq_false]

theorem lanesSound (h : PinResetValues t roles low) : LanesSound t := by
  simp [LanesSound, PortState.lane, h.ports]

theorem inFlightSound (h : PinResetValues t roles low) : InFlightSound t := by
  simp [InFlightSound, h.ports, h.engine_state]

/-- Every segment is online, for its engine is CHECKING (R88, R111). -/
theorem offline_eq_false (h : PinResetValues t roles low) (g : Seg) : t.offline g = false := by
  rw [offline, h.engine_state]

theorem offlineSegmentsIdle (h : PinResetValues t roles low) : OfflineSegmentsIdle t := by
  simp [OfflineSegmentsIdle, h.offline_eq_false]

theorem holdKeysUnique (h : PinResetValues t roles low) : HoldKeysUnique t := by
  simp [HoldKeysUnique, h.holds]

theorem waitersSound (h : PinResetValues t roles low) : WaitersSound t := by
  simp [WaitersSound, h.holds, h.ports]

theorem resetPortsEmpty (h : PinResetValues t roles low) : ResetPortsEmpty t := by
  simp [ResetPortsEmpty, h.ports, h.sems, h.holds]

end PinResetValues

end State

open State

/-- Settles O4: both pin changes and State.reset, each by its own lemma. -/
theorem pinResetLeavesTheResetValues : Obligations.PinResetLeavesTheResetValues :=
  ⟨exec_resetnFall_keeps, exec_resetnRise_values, _, _, reset_values⟩

/-- Settles O50: State.reset has the pin-reset values, and these meet each invariant. -/
theorem invariantsHoldAtReset : Obligations.InvariantsHoldAtReset :=
  have h := reset_values
  ⟨h.aliasesUnique, h.semaphoresSound, h.requestBounds, h.enginesSound, h.deficitBounds, h.dueSound, h.lanesSound,
    h.inFlightSound, h.offlineSegmentsIdle, h.holdKeysUnique, h.waitersSound, h.resetPortsEmpty⟩

end Sys2Proof.Machine
end

section
/-! PROOF. The frames that name a table entry by an index: ROUTE GET, POLL GET and POLL READ (R26, R126, R127), and
those that need the claim besides (R151, R166). -/

namespace Sys2Proof.Machine

set_option Elab.async false

open State

variable {s : State} {p : Port} {k : FrameKind} {n : Nat} {b : Byte} {act : State → Fin n → Answer}

/-! ### Frames with an index -/

/-- A frame that names an entry by an index; any port may send it. -/
def indexedFrame (p : Port) (k : FrameKind) (b : Byte) (act : State → Fin n → Answer) (s : State) : State :=
  frameOf p k (fun s => withIndex n b k s (act s)) s

/-- A frame that names an entry by an index and needs the configuration claim. -/
def claimedFrame (p : Port) (k : FrameKind) (b : Byte) (act : State → Fin n → Answer) (s : State) : State :=
  frameOf p k (fun s => withClaim p k s (withIndex n b k s (act s))) s

theorem indexedFrame_of_le (hrun : s.running p = true) (hb : n ≤ b.toNat) :
    indexedFrame p k b act s = s.answers p k (answer k .badIndex) :=
  frameOf_reading hrun (withIndex_of_le hb)

/-- Where the block only reports, the frame changes nothing but the reply. -/
theorem indexedFrame_of_lt (hrun : s.running p = true) (i : Fin n) (hb : b.toNat = i.val) {reply : List Byte}
    (hact : act (s.noFrame p) i = ⟨s.noFrame p, reply, .none⟩) :
    indexedFrame p k b act s = s.answers p k reply :=
  frameOf_reading hrun ((withIndex_of_lt i hb).trans hact)

theorem claimedFrame_unclaimed (hrun : s.running p = true) (hclaim : (s.sem 0).owner ≠ some p) :
    claimedFrame p k b act s = s.answers p k (answer k .notClaimed) := by
  refine frameOf_reading hrun (withClaim_no ?_)
  rw [noFrame_hasClaim, Bool.eq_false_iff, ne_eq, hasClaim_iff]
  exact hclaim

/-- With the claim the checks of the index and of the block follow. -/
theorem claimedFrame_claimed (hclaim : (s.sem 0).owner = some p) :
    claimedFrame p k b act s = indexedFrame p k b act s := by
  have hyes : (s.noFrame p).hasClaim p = true := (hasClaim_iff ..).mpr hclaim
  cases hrun : s.running p
  · rw [claimedFrame, indexedFrame, frameOf_not_running hrun, frameOf_not_running hrun]
  · rw [claimedFrame, indexedFrame, frameOf_running hrun, frameOf_running hrun, withClaim_yes hyes]

/-- With the claim and an index in range the block acts. -/
theorem claimedFrame_acts (hrun : s.running p = true) (hclaim : (s.sem 0).owner = some p) (i : Fin n)
    (hb : b.toNat = i.val) : claimedFrame p k b act s =
      (act (s.noFrame p) i).state.answers p k (act (s.noFrame p) i).reply (act (s.noFrame p) i).snapshot := by
  rw [claimedFrame_claimed hclaim, indexedFrame, frameOf_running hrun, withIndex_of_lt i hb]

/-! ### The three reports -/

theorem exec_routeGet (b : Byte) : exec (.routeGet p b) s = .next (indexedFrame p .routeGet b
    (fun s i => ⟨s, answer .routeGet .ok (routeFields (s.route i)), .none⟩) s) := rfl

theorem exec_pollGet (b : Byte) : exec (.pollGet p b) s = .next (indexedFrame p .pollGet b
    (fun s n => ⟨s, answer .pollGet .ok (pollGetFields (s.poll n)), .none⟩) s) := rfl

theorem exec_pollRead (b : Byte) : exec (.pollRead p b) s = .next (indexedFrame p .pollRead b
    (fun s n => ⟨s, answer .pollRead .ok (pollReadFields (s.poll n)), .none⟩) s) := rfl

/-- The data of a POLL READ reply is filled up to the eight bytes of the longest read (R167). -/
theorem answer_pollRead {e : PollEntry} (h : e.result.data.length ≤ 8) :
    answer .pollRead .ok (pollReadFields e) =
      [0x00, pollStatusCode e.result.status, e.result.sequence, boolByte e.result.valid, byte (e.result.age / 256),
        byte (e.result.age % 256), byte e.config.readLen] ++ e.result.data ++
        List.replicate (8 - e.result.data.length) 0x00 := by
  have hlen : (ReplyStatus.ok.code :: pollReadFields e).length = 7 + e.result.data.length := by
    simp [pollReadFields, bytes2]
    omega
  have hpad : FrameKind.pollRead.replyLen - (7 + e.result.data.length) = 8 - e.result.data.length := by
    simp only [FrameKind.replyLen]
    omega
  rw [answer, padTo_eq (by simp only [hlen, FrameKind.replyLen]; omega), hlen, hpad]
  rfl

/-- Settles O26: an index above the range is BAD_INDEX, any other reports its entry. -/
theorem tableReadsReportTheEntry : Obligations.TableReadsReportTheEntry := by
  intro s p b hrun
  refine ⟨fun hb => ?_, fun hb => ?_, fun hb => ?_, fun i hb => ?_, fun n hb => ⟨?_, fun hdata => ?_⟩⟩
  · rw [exec_routeGet, indexedFrame_of_le hrun hb]
    rfl
  · rw [exec_pollGet, indexedFrame_of_le hrun hb]
    rfl
  · rw [exec_pollRead, indexedFrame_of_le hrun hb]
    rfl
  · rw [exec_routeGet, indexedFrame_of_lt hrun i hb rfl]
    rfl
  · rw [exec_pollGet, indexedFrame_of_lt hrun n hb rfl]
    rfl
  · rw [exec_pollRead, indexedFrame_of_lt hrun n hb rfl, noFrame_poll, answer_pollRead hdata]

end Sys2Proof.Machine
end

section
/-! PROOF. ROUTE SET and ROUTE CLEAR: the checks, the entry written and the sweep (R23, R24, R25), and that no step
makes two valid entries share an address (R21). -/

namespace Sys2Proof.Machine

set_option Elab.async false

open State

/-! ### Bytes in range (section 11.2) -/

theorem readIdx_some {n : Nat} {b : Byte} {i : Fin n} (h : readIdx n b = some i) : b.toNat < n ∧ i.val = b.toNat := by
  unfold readIdx at h
  split at h
  · next hlt =>
    obtain rfl := Option.some.inj h
    exact ⟨hlt, rfl⟩
  · exact nomatch h

theorem readRight_some {b : Byte} {r : Right} (h : readRight b = some r) : b.toNat ≤ 2 ∧ r.code = b := by
  unfold readRight at h
  split_ifs at h with h0 h1 h2
  all_goals
    obtain rfl := Option.some.inj h
    subst b
    decide

theorem readRight_of_le {b : Byte} (h : b.toNat ≤ 2) : ∃ r, readRight b = some r := by
  obtain rfl | rfl | rfl : b = 0x00 ∨ b = 0x01 ∨ b = 0x02 := by bv_omega
  all_goals exact ⟨_, rfl⟩

theorem readYesNo_some {b : Byte} {y : Bool} (h : readYesNo b = some y) : b.toNat ≤ 1 ∧ boolByte y = b := by
  unfold readYesNo at h
  split_ifs at h with h0 h1
  all_goals
    obtain rfl := Option.some.inj h
    subst b
    decide

theorem readYesNo_of_le {b : Byte} (h : b.toNat ≤ 1) : ∃ y, readYesNo b = some y := by
  obtain rfl | rfl : b = 0x00 ∨ b = 0x01 := by bv_omega
  all_goals exact ⟨_, rfl⟩

/-! ### The values a ROUTE SET carries (R23) -/

variable {f : RouteFields} {e : RouteEntry}

/-- Every value a ROUTE SET carries is in its range. -/
def RouteFits (f : RouteFields) : Prop :=
  0x08 ≤ f.aliasByte.toNat % 128 ∧ f.aliasByte.toNat % 128 ≤ 0x77 ∧ f.segment.toNat ≤ 3 ∧
  0x08 ≤ f.target.toNat % 128 ∧ f.target.toNat % 128 ≤ 0x77 ∧ f.right0.toNat ≤ 2 ∧ f.right1.toNat ≤ 2 ∧
  f.right2.toNat ≤ 2 ∧ f.posted.toNat ≤ 1 ∧ f.holdLimit ≠ 0

/-- The entry is valid and holds the carried values. -/
structure Carries (f : RouteFields) (e : RouteEntry) : Prop where
  valid : e.valid = true
  aliasAddr : e.aliasAddr = f.aliasByte.setWidth 7
  seg : e.key.seg.val = f.segment.toNat
  target : e.key.target = f.target.setWidth 7
  right0 : e.rights[0].code = f.right0
  right1 : e.rights[1].code = f.right1
  right2 : e.rights[2].code = f.right2
  posted : boolByte e.posted = f.posted
  holdLimit : e.holdLimit = f.holdLimit.toNat

theorem routeEntryOf_some (h : routeEntryOf f = some e) : RouteFits f ∧ Carries f e := by
  unfold routeEntryOf at h
  split at h
  · next g r0 r1 r2 y hg h0 h1 h2 hy =>
    split at h
    · next hrest =>
      obtain rfl := Option.some.inj h
      simp only [Bool.and_eq_true, usable_iff, bne_iff_ne] at hrest
      obtain ⟨⟨⟨haliasLow, haliasHigh⟩, htargetLow, htargetHigh⟩, hlimit⟩ := hrest
      obtain ⟨hseg, hsegEq⟩ := readIdx_some hg
      obtain ⟨hright0, hcode0⟩ := readRight_some h0
      obtain ⟨hright1, hcode1⟩ := readRight_some h1
      obtain ⟨hright2, hcode2⟩ := readRight_some h2
      obtain ⟨hposted, hpostedEq⟩ := readYesNo_some hy
      exact ⟨⟨haliasLow, haliasHigh, Nat.le_of_lt_succ hseg, htargetLow, htargetHigh, hright0, hright1, hright2,
        hposted, hlimit⟩, rfl, rfl, hsegEq, rfl, hcode0, hcode1, hcode2, hpostedEq, rfl⟩
    · exact nomatch h
  · exact nomatch h

theorem routeEntryOf_of_fits (h : RouteFits f) : ∃ e, routeEntryOf f = some e := by
  obtain ⟨haliasLow, haliasHigh, hseg, htargetLow, htargetHigh, hright0, hright1, hright2, hposted, hlimit⟩ := h
  obtain ⟨r0, h0⟩ := readRight_of_le hright0
  obtain ⟨r1, h1⟩ := readRight_of_le hright1
  obtain ⟨r2, h2⟩ := readRight_of_le hright2
  obtain ⟨y, hy⟩ := readYesNo_of_le hposted
  have hrest : (usable (readAddr f.aliasByte) && usable (readAddr f.target) && f.holdLimit != 0) = true := by
    simp only [Bool.and_eq_true, usable_iff, bne_iff_ne]
    exact ⟨⟨⟨haliasLow, haliasHigh⟩, htargetLow, htargetHigh⟩, hlimit⟩
  simp only [routeEntryOf, readIdx_of_lt ⟨_, Nat.lt_succ_of_le hseg⟩ rfl, h0, h1, h2, hy, if_pos hrest]
  exact ⟨_, rfl⟩

theorem routeEntryOf_of_not_fits (h : ¬RouteFits f) : routeEntryOf f = none :=
  Option.eq_none_iff_forall_ne_some.mpr fun _ he => h (routeEntryOf_some he).1

namespace State

variable {s t : State} {p : Port} {i : RouteIdx}

/-! ### The two blocks after the claim and index checks -/

theorem aliasTaken_iff (s : State) (i : RouteIdx) (a : Addr) : s.aliasTaken i a = true ↔
    ∃ j, j ≠ i ∧ (s.route j).valid = true ∧ (s.route j).aliasAddr = a := by
  simp [aliasTaken, and_assoc]

theorem routeSet_badValue (s : State) (i : RouteIdx) (h : routeEntryOf f = none) :
    s.routeSet i f = refuse s .routeSet .badValue := by
  rw [routeSet, h]

theorem routeSet_taken (h : routeEntryOf f = some e) (htaken : s.aliasTaken i e.aliasAddr = true) :
    s.routeSet i f = refuse s .routeSet .aliasTaken := by
  simp [routeSet, h, htaken]

/-- An entry that was invalid is written, and nothing is swept (R24). -/
theorem routeSet_invalid (h : routeEntryOf f = some e) (hfree : s.aliasTaken i e.aliasAddr = false)
    (hv : (s.route i).valid = false) : s.routeSet i f = ⟨s.setRoute i e, answer .routeSet .ok [0, 0], .none⟩ := by
  simp [routeSet, h, hfree, hv]

/-- An entry that was valid is written over, and its index is swept (R24). -/
theorem routeSet_valid (h : routeEntryOf f = some e) (hfree : s.aliasTaken i e.aliasAddr = false)
    (hv : (s.route i).valid = true) :
    s.routeSet i f = ⟨(s.setRoute i e).sweep i, answer .routeSet .ok (s.sweepCounts i), .none⟩ := by
  simp [routeSet, h, hfree, hv]

theorem routeClear_invalid (hv : (s.route i).valid = false) :
    s.routeClear i = ⟨s, answer .routeClear .ok [0, 0], .none⟩ := by
  simp [routeClear, hv]

theorem routeClear_valid (hv : (s.route i).valid = true) : s.routeClear i =
    ⟨(s.setRoute i { s.route i with valid := false }).sweep i, answer .routeClear .ok (s.sweepCounts i), .none⟩ := by
  simp [routeClear, hv]

/-- The numbers of a sweep do not depend on a frame in progress. -/
@[simp] theorem sweepCounts_noFrame (s : State) (p : Port) (i : RouteIdx) :
    (s.noFrame p).sweepCounts i = s.sweepCounts i := by
  have hsuspended : (s.noFrame p).suspendCount i = s.suspendCount i := rfl
  simp [sweepCounts, sweptCount, hsuspended]

/-! ### No two valid entries share an address (R21) -/

theorem AliasesUnique.congr (h : AliasesUnique s) (hroute : ∀ i, t.route i = s.route i) : AliasesUnique t := by
  intro i j
  rw [hroute, hroute]
  exact h i j

theorem AliasesUnique.keeps {l : List Part} (h : AliasesUnique s) (k : Keeps s t l) (m : .routes ∉ l := by decide) :
    AliasesUnique t := h.congr fun i => k.route i m

/-- An entry may be written when it is invalid or no other valid entry has its address. -/
theorem AliasesUnique.setRoute (h : AliasesUnique s) {x : RouteEntry}
    (hx : x.valid = true → s.aliasTaken i x.aliasAddr = false) : AliasesUnique (s.setRoute i x) := by
  have hnew : x.valid = true → ∀ j, i ≠ j → (s.route j).valid = true → (s.route j).aliasAddr ≠ x.aliasAddr := by
    intro hvalid j hj hvalidJ haddr
    have htaken := (aliasTaken_iff s i x.aliasAddr).mpr ⟨j, hj.symm, hvalidJ, haddr⟩
    rw [hx hvalid] at htaken
    exact nomatch htaken
  intro j k hj hk haddr
  by_cases hij : i = j <;> by_cases hik : i = k
  · exact hij.symm.trans hik
  · subst hij
    rw [setRoute_route_self] at hj haddr
    rw [setRoute_route_ne _ hik] at hk haddr
    exact absurd haddr.symm (hnew hj k hik hk)
  · subst hik
    rw [setRoute_route_self] at hk haddr
    rw [setRoute_route_ne _ hij] at hj haddr
    exact absurd haddr (hnew hk j hij hj)
  · rw [setRoute_route_ne _ hij] at hj haddr
    rw [setRoute_route_ne _ hik] at hk haddr
    exact h j k hj hk haddr

/-- Check 4 keeps a ROUTE SET from writing an address that another valid entry has. -/
theorem AliasesUnique.routeSet (h : AliasesUnique s) (i : RouteIdx) (f : RouteFields) :
    AliasesUnique (s.routeSet i f).state := by
  cases he : routeEntryOf f with
  | none =>
    rw [routeSet_badValue s i he]
    exact h
  | some e =>
    cases htaken : s.aliasTaken i e.aliasAddr with
    | true =>
      rw [routeSet_taken he htaken]
      exact h
    | false =>
      have hset : AliasesUnique (s.setRoute i e) := h.setRoute fun _ => htaken
      cases hv : (s.route i).valid with
      | true =>
        rw [routeSet_valid he htaken hv]
        exact hset.keeps (sweep_keeps ..)
      | false =>
        rw [routeSet_invalid he htaken hv]
        exact hset

theorem AliasesUnique.routeClear (h : AliasesUnique s) (i : RouteIdx) : AliasesUnique (s.routeClear i).state := by
  cases hv : (s.route i).valid with
  | true =>
    rw [routeClear_valid hv]
    exact (h.setRoute fun hvalid => absurd hvalid Bool.false_ne_true).keeps (sweep_keeps ..)
  | false =>
    rw [routeClear_invalid hv]
    exact h

theorem AliasesUnique.claimedFrame (h : AliasesUnique s) {k : FrameKind} {n : Nat} {b : Byte}
    {act : State → Fin n → Answer} (hact : ∀ s i, AliasesUnique s → AliasesUnique (act s i).state) :
    AliasesUnique (Machine.claimedFrame p k b act s) := by
  cases hrun : s.running p with
  | false => rwa [Machine.claimedFrame, frameOf_not_running hrun]
  | true =>
    by_cases hclaim : (s.sem 0).owner = some p
    · by_cases hb : b.toNat < n
      · rw [claimedFrame_acts hrun hclaim ⟨_, hb⟩ rfl]
        exact (hact _ _ (h.keeps (noFrame_keeps ..))).keeps (answers_keeps ..)
      · rw [claimedFrame_claimed hclaim, indexedFrame_of_le hrun (Nat.not_lt.mp hb)]
        exact h.keeps (answers_keeps ..)
    · rw [claimedFrame_unclaimed hrun hclaim]
      exact h.keeps (answers_keeps ..)

end State

variable {s t : State} {p : Port}

theorem exec_routeSet (f : RouteFields) : exec (.routeSet p f) s =
    .next (claimedFrame p .routeSet f.index (fun s i => s.routeSet i f) s) := rfl

theorem exec_routeClear (b : Byte) : exec (.routeClear p b) s =
    .next (claimedFrame p .routeClear b (fun s i => s.routeClear i) s) := rfl

/-- Only ROUTE SET, ROUTE CLEAR and the rise of RESETN change the route table. -/
theorem State.AliasesUnique.exec (h : AliasesUnique s) {c : Instr} (e : exec c s = .next t) : AliasesUnique t := by
  have hkeeps := exec_keeps e
  cases c with
  | routeSet p f =>
    obtain rfl := Host.Outcome.next.inj (exec_routeSet f ▸ e)
    exact h.claimedFrame fun s i hs => hs.routeSet i f
  | routeClear p b =>
    obtain rfl := Host.Outcome.next.inj (exec_routeClear b ▸ e)
    exact h.claimedFrame fun s i hs => hs.routeClear i
  | resetnRise role0 role1 role2 =>
    obtain ⟨u, hu, hvalues⟩ := exec_resetnRise_values s #v[role0, role1, role2]
    obtain rfl := Host.Outcome.next.inj (hu.symm.trans e)
    exact hvalues.aliasesUnique
  | _ =>
    dsimp only [changes] at hkeeps
    exact h.keeps hkeeps

/-- The hub's own agents leave the route table (log 1). -/
theorem idle_route (s : State) (i : RouteIdx) : s.idle.route i = s.route i := by
  unfold State.idle
  split
  · rfl
  · split <;> rfl

/-- Settles O51: the idle step leaves the route table, and every command keeps the addresses of its valid entries
apart. -/
theorem stepKeepsAliasesUnique : Obligations.StepKeepsAliasesUnique := by
  intro s t h e
  unfold step at e
  split at e
  · obtain rfl := Host.Outcome.next.inj e
    exact h.congr (idle_route s)
  · next rest _ => exact State.AliasesUnique.exec (s := { s with pending := rest }) h e

/-! ### ROUTE SET and ROUTE CLEAR (R23, R24, R25) -/

/-- ROUTE SET of a claiming port with an index in range answers what its block answers. -/
theorem exec_routeSet_acts (hrun : s.running p = true) (hclaim : (s.sem 0).owner = some p) {f : RouteFields}
    {i : RouteIdx} (hb : f.index.toNat = i.val) {u : State} {reply : List Byte}
    (hact : (s.noFrame p).routeSet i f = ⟨u, reply, .none⟩) :
    exec (.routeSet p f) s = .next (u.answers p .routeSet reply) := by
  rw [exec_routeSet, claimedFrame_acts hrun hclaim i hb, hact]

/-- ROUTE CLEAR of a claiming port with an index in range answers what its block answers. -/
theorem exec_routeClear_acts (hrun : s.running p = true) (hclaim : (s.sem 0).owner = some p) {b : Byte}
    {i : RouteIdx} (hb : b.toNat = i.val) {u : State} {reply : List Byte}
    (hact : (s.noFrame p).routeClear i = ⟨u, reply, .none⟩) :
    exec (.routeClear p b) s = .next (u.answers p .routeClear reply) := by
  rw [exec_routeClear, claimedFrame_acts hrun hclaim i hb, hact]

/-- Settles O27, by the first check that fails, and by whether the entry was valid. -/
theorem routeSetAndClear : Obligations.RouteSetAndClear := by
  refine ⟨fun s p f hrun => ⟨fun hno => ?_, fun hclaim => ⟨fun hb => ?_, fun i hb => ?_⟩⟩,
    fun s p b hrun => ⟨fun hno => ?_, fun hclaim => ⟨fun hb => ?_, fun i hb => ?_⟩⟩⟩
  · rw [exec_routeSet, claimedFrame_unclaimed hrun hno]
    rfl
  · rw [exec_routeSet, claimedFrame_claimed hclaim, indexedFrame_of_le hrun hb]
    rfl
  · refine ⟨fun hout => ?_, fun hfits htaken => ?_, fun hfits hfree => ?_⟩
    · rw [exec_routeSet_acts hrun hclaim hb (routeSet_badValue _ i (routeEntryOf_of_not_fits hout)), noFrame_answers]
      rfl
    · obtain ⟨e, he⟩ := routeEntryOf_of_fits hfits
      rw [← (routeEntryOf_some he).2.aliasAddr] at htaken
      have htaken : (s.noFrame p).aliasTaken i e.aliasAddr = true := (aliasTaken_iff s i _).mpr htaken
      rw [exec_routeSet_acts hrun hclaim hb (routeSet_taken he htaken), noFrame_answers]
      rfl
    · obtain ⟨e, he⟩ := routeEntryOf_of_fits hfits
      have hcarries := (routeEntryOf_some he).2
      have hfree : (s.noFrame p).aliasTaken i e.aliasAddr = false := by
        rw [← hcarries.aliasAddr] at hfree
        exact Bool.eq_false_iff.mpr fun htaken => hfree ((aliasTaken_iff s i _).mp htaken)
      refine ⟨e, hcarries.valid, hcarries.aliasAddr, hcarries.seg, hcarries.target, hcarries.right0, hcarries.right1,
        hcarries.right2, hcarries.posted, hcarries.holdLimit, fun hv => ?_, fun hv => ?_⟩
      · rw [exec_routeSet_acts hrun hclaim hb (routeSet_invalid he hfree hv), noFrame_setRoute, noFrame_answers]
        rfl
      · rw [exec_routeSet_acts hrun hclaim hb (routeSet_valid he hfree hv), sweepCounts_noFrame]
        rfl
  · rw [exec_routeClear, claimedFrame_unclaimed hrun hno]
    rfl
  · rw [exec_routeClear, claimedFrame_claimed hclaim, indexedFrame_of_le hrun hb]
    rfl
  · refine ⟨fun hv => ?_, fun hv => ?_⟩
    · rw [exec_routeClear_acts hrun hclaim hb (routeClear_invalid hv), noFrame_answers]
      rfl
    · rw [exec_routeClear_acts hrun hclaim hb (routeClear_valid hv), sweepCounts_noFrame]
      rfl

end Sys2Proof.Machine
end

section
/-! PROOF. Requests that one event completes with a failure status (R28, R43, R135). -/

namespace Sys2Proof.Machine

set_option Elab.async false

open State

namespace PortState

/-- What a posted request that fails without an acknowledge leaves in the posted-fault record (R135). -/
def faultEntered (old : Option PostedFault) (st : Status) (r : Request) : PostedFault :=
  match old with
  | none => ⟨r.tag, r.route, r.key, st, 0, 0⟩
  | some f => { f with further := satInc 255 f.further }

theorem enterFault_postedFault (ps : PortState) (r : Request) (st : Status) (h : ps.inReset = false) :
    (ps.enterFault r st 0).postedFault = some (faultEntered ps.postedFault st r) := by
  cases hf : ps.postedFault <;> simp [enterFault, h, hf, faultEntered]

theorem faultEntered_further_le (old : Option PostedFault) (st : Status) (r : Request) :
    (faultEntered old st r).further ≤ 255 := by
  cases old <;> simp [faultEntered, satInc]

/-- Failures after the first are only counted (R135). -/
theorem faultsEntered_some (f : PostedFault) (st : Status) (l : List Request) (h : f.further ≤ 255) :
    faultsEntered (some f) st l = some { f with further := min (f.further + l.length) 255 } := by
  cases l with
  | nil => simp [faultsEntered, h]
  | cons r rest => rfl

/-- Failures of one event are entered one after another. -/
theorem faultsEntered_cons (old : Option PostedFault) (st : Status) (r : Request) (rest : List Request) :
    faultsEntered old st (r :: rest) = faultsEntered (some (faultEntered old st r)) st rest := by
  rw [faultsEntered_some _ _ _ (faultEntered_further_le ..)]
  cases old with
  | none => simp [faultsEntered, faultEntered]
  | some f =>
    simp only [faultsEntered, faultEntered, satInc, Option.some.injEq, PostedFault.mk.injEq, true_and]
    omega

/-- A delivery notes at most a fault in the frame in progress; its reply stands. -/
theorem deliver_reply (ps : PortState) (r : Request) (e : Ending) :
    (ps.deliver r e).frame.map (·.reply) = ps.frame.map (·.reply) := by
  have hfault : (ps.enterFault r e.status e.ackCount).frame.map (·.reply) = ps.frame.map (·.reply) := by
    unfold enterFault
    split
    · rfl
    · cases hf : ps.frame <;> simp [noteFrame, hf]
  unfold deliver
  split
  · split
    · rfl
    · exact hfault
  · rw [pushResult_frame]

/-- A failure of a posted request goes to the posted-fault record, that of a non-posted one does not (R17). -/
theorem deliver_postedFault (ps : PortState) (r : Request) {st : Status} (hdone : st ≠ .done)
    (hcancelled : st ≠ .cancelled) (h : ps.inReset = false) : (ps.deliver r { status := st }).postedFault =
      if r.posted then some (faultEntered ps.postedFault st r) else ps.postedFault := by
  unfold deliver
  cases hp : r.posted with
  | true => simpa [hdone, hcancelled] using enterFault_postedFault ps r st h
  | false => simp

theorem deliver_postedFault_inReset (ps : PortState) (r : Request) (e : Ending) (h : ps.inReset = true) :
    (ps.deliver r e).postedFault = ps.postedFault := by
  unfold deliver
  split
  · split
    · rfl
    · simp [enterFault, h]
  · exact pushResult_postedFault ..

theorem foldl_deliver_postedFault {st : Status} (hdone : st ≠ .done) (hcancelled : st ≠ .cancelled)
    (l : List Request) : ∀ ps : PortState, ps.inReset = false → (l.foldl (fun ps r => ps.deliver r { status := st }) ps).postedFault =
      faultsEntered ps.postedFault st (l.filter (·.posted)) := by
  induction l with
  | nil => intro ps _; rfl
  | cons r l ih =>
    intro ps h
    rw [List.foldl_cons, ih _ (by simpa using h), deliver_postedFault ps r hdone hcancelled h]
    cases hp : r.posted with
    | true => simp [hp, faultsEntered_cons]
    | false => simp [hp]

theorem foldl_deliver_postedFault_inReset (st : Status) (l : List Request) :
    ∀ ps : PortState, ps.inReset = true →
      (l.foldl (fun ps r => ps.deliver r { status := st }) ps).postedFault = ps.postedFault := by
  induction l with
  | nil => intro ps _; rfl
  | cons r l ih =>
    intro ps h
    rw [List.foldl_cons, ih _ (by simpa using h), deliver_postedFault_inReset ps r _ h]

theorem completeAll_reply (ps : PortState) (sel : Request → Bool) (st : Status) :
    (ps.completeAll sel st).frame.map (·.reply) = ps.frame.map (·.reply) :=
  foldl_deliver st (fun ps => ps.frame.map (·.reply)) (fun _ _ => deliver_reply ..) _ _

/-- Completing what `sel` picks with a failure status is what R28, R43 and R52 say of one event. -/
theorem completeAll_drained (ps : PortState) (sel : Request → Bool) {st : Status} (hdone : st ≠ .done)
    (hcancelled : st ≠ .cancelled) : Drained sel st ps (ps.completeAll sel st) where
  reqs := completeAll_reqs ..
  results := by
    cases h : ps.inReset with
    | true => simpa using completeAll_results_inReset ps sel st h
    | false => exact completeAll_results ps sel st h
  fault := by
    cases h : ps.inReset with
    | true => exact foldl_deliver_postedFault_inReset st _ _ h
    | false => exact foldl_deliver_postedFault hdone hcancelled _ _ h
  kept := by simp
  reply := completeAll_reply ..

end PortState

end Sys2Proof.Machine
end

section
/-! PROOF. The route change sweep (R27 to R31). -/

namespace Sys2Proof.Machine

set_option Elab.async false

open State PortState

namespace State

variable {s : State} {i : RouteIdx}

/-! ### The sweep of one port's requests -/

theorem sweepPort_port (s : State) (i : RouteIdx) (p q : Port) : (s.sweepPort i p).port q =
    if p = q then (s.port q).completeAll (swept i) .routeChanged else s.port q := by
  rw [sweepPort, modifyPort_port]
  rfl

/-- The sweep of index `i` completes the HOLD a waiter stands for (R29). -/
def sweepsWaiter (s : State) (i : RouteIdx) (w : Waiter) : Bool :=
  (s.port w.port).reqs.any fun r => swept i r && r.state == .waitingHold && r.tag == w.tag

/-- A HOLD that waits is swept exactly when it was recorded with the index (R27). -/
theorem sweepsWaiter_eq (s : State) (i : RouteIdx) (w : Waiter) : s.sweepsWaiter i w =
    (s.port w.port).reqs.any fun r => r.route == some i && r.state == .waitingHold && r.tag == w.tag := by
  unfold sweepsWaiter
  congr 1
  funext r
  by_cases hw : r.state = .waitingHold
  · have hswept : swept i r = (r.route == some i) := by rw [swept, hw]; exact Bool.and_true _
    rw [hswept]
  · rw [beq_eq_false_iff_ne.mpr hw]
    simp

theorem sweepsWaiter_congr {t : State} {w : Waiter} (h : t.port w.port = s.port w.port) :
    t.sweepsWaiter i w = s.sweepsWaiter i w := by
  rw [sweepsWaiter, h]
  rfl

theorem sweepPort_hold (s : State) (i : RouteIdx) (p : Port) (k : HoldIdx) : (s.sweepPort i p).hold k =
    (s.hold k).map fun e => { e with waiters := e.waiters.filter fun w => !(w.port == p && s.sweepsWaiter i w) } := by
  rw [sweepPort, modifyPort_hold, sweepWaiters, dropWaiters, mapHolds_hold]
  congr 1
  funext e
  congr 2
  funext w
  by_cases hp : w.port = p
  · subst hp
    rfl
  · rw [beq_eq_false_iff_ne.mpr hp, Bool.false_and, Bool.false_and]

/-! ### The sweep of several ports

A port's sweep reads the requests of that port alone, so the sweeps of different ports do not meet. -/

theorem foldl_sweepPort_port (i : RouteIdx) (q : Port) (l : List Port) (hl : l.Nodup) : ∀ s : State,
    (l.foldl (fun s p => s.sweepPort i p) s).port q =
      if q ∈ l then (s.port q).completeAll (swept i) .routeChanged else s.port q := by
  induction l with
  | nil => intro s; rfl
  | cons p l ih =>
    intro s
    obtain ⟨hp, hl⟩ := List.nodup_cons.mp hl
    rw [List.foldl_cons, ih hl, sweepPort_port]
    by_cases hpq : p = q
    · subst hpq
      simp [hp]
    · simp [hpq, Ne.symm hpq]

theorem foldl_sweepPort_hold (i : RouteIdx) (k : HoldIdx) (l : List Port) (hl : l.Nodup) : ∀ s : State,
    (l.foldl (fun s p => s.sweepPort i p) s).hold k = (s.hold k).map fun e =>
      { e with waiters := e.waiters.filter fun w => !(l.contains w.port && s.sweepsWaiter i w) } := by
  induction l with
  | nil => intro s; simp
  | cons p l ih =>
    intro s
    obtain ⟨hp, hl⟩ := List.nodup_cons.mp hl
    rw [List.foldl_cons, ih hl, sweepPort_hold, Option.map_map]
    congr 1
    funext e
    simp only [Function.comp_apply, List.filter_filter]
    congr 2
    funext w
    by_cases hw : w.port = p
    · simp [hw, hp]
    · have hport : (s.sweepPort i p).port w.port = s.port w.port := by rw [sweepPort_port, if_neg (Ne.symm hw)]
      rw [sweepsWaiter_congr hport]
      simp [hw]

/-! ### The whole sweep -/

theorem allPorts_nodup : allPorts.Nodup := by decide

theorem mem_allPorts (p : Port) : p ∈ allPorts := by
  revert p
  decide

/-- The sweep of the requests and the waiters of all ports, before that of the poll table. -/
def sweepPorts (s : State) (i : RouteIdx) : State := allPorts.foldl (fun s p => s.sweepPort i p) s

theorem sweep_eq (s : State) (i : RouteIdx) : s.sweep i = (s.sweepPorts i).sweepPolls i := rfl

theorem sweepPorts_keeps (s : State) (i : RouteIdx) : Keeps s (s.sweepPorts i) [.holds, .ports] :=
  Keeps.foldl (fun s p => sweepPort_keeps s i p) allPorts s

theorem sweep_port (s : State) (i : RouteIdx) (p : Port) :
    (s.sweep i).port p = (s.port p).completeAll (swept i) .routeChanged := by
  rw [sweep_eq, (sweepPolls_keeps ..).port, sweepPorts, foldl_sweepPort_port i p _ allPorts_nodup,
    if_pos (mem_allPorts p)]

theorem sweep_hold (s : State) (i : RouteIdx) (k : HoldIdx) : (s.sweep i).hold k = (s.hold k).map fun e =>
    { e with waiters := e.waiters.filter fun w => !s.sweepsWaiter i w } := by
  rw [sweep_eq, (sweepPolls_keeps ..).hold, sweepPorts, foldl_sweepPort_hold i k _ allPorts_nodup]
  simp [mem_allPorts]

theorem sweep_dueOf (s : State) (i : RouteIdx) (g : Seg) :
    (s.sweep i).dueOf g = (s.dueOf g).filter fun n => !suspends i (s.poll n) := by
  have hpoll (n : PollIdx) : (s.sweepPorts i).poll n = s.poll n := (sweepPorts_keeps s i).poll n
  rw [sweep_eq, sweepPolls, mapPolls_dueOf, mapDue_dueOf, (sweepPorts_keeps s i).dueOf]
  simp only [hpoll]

theorem sweep_poll (s : State) (i : RouteIdx) (n : PollIdx) :
    (s.sweep i).poll n = if suspends i (s.poll n) then suspend (s.poll n) else s.poll n := by
  rw [sweep_eq, sweepPolls, mapPolls_poll, mapDue_poll, (sweepPorts_keeps s i).poll]

theorem suspends_iff (i : RouteIdx) (e : PollEntry) :
    suspends i e = true ↔ e.config.route = i ∧ e.state = .active := by
  simp [suspends]

theorem sweep_effects (s : State) (i : RouteIdx) : SweepEffects s (s.sweep i) i where
  requests q := by
    rw [sweep_port]
    exact completeAll_drained _ (swept i) nofun nofun
  records q := by simp [sweep_port]
  holds k := by
    rw [sweep_hold]
    simp only [sweepsWaiter_eq]
  due g := sweep_dueOf s i g
  polls n := by
    rw [sweep_poll]
    simp only [suspends_iff]
    rfl
  rest := (sweep_keeps s i).mono

end State

/-- Settles O28: the effects block by block; the two numbers count the requests and the poll entries by the conditions
of R27 and R31. -/
theorem sweepEffectsOfARouteChange : Obligations.SweepEffectsOfARouteChange :=
  fun s i => ⟨sweep_effects s i, fun _ => rfl, rfl⟩

end Sys2Proof.Machine
end

section
/-! PROOF. Going offline: what the drain of a segment leaves in each block (R52, R67, R101, R102, R103). -/

namespace Sys2Proof.Machine

set_option Elab.async false

open State PortState

/-! ### The hold-end records of one port (R137) -/

namespace PortState

theorem addHoldEnd_reply (ps : PortState) (e : HoldEnd) :
    (ps.addHoldEnd e).frame.map (·.reply) = ps.frame.map (·.reply) := by
  unfold addHoldEnd
  split
  · rfl
  · split
    · rfl
    · cases hf : ps.frame <;> simp [noteFrame, hf]

/-- A port is given hold-end records one after another. -/
def addHoldEnds (ps : PortState) (ends : List HoldEnd) : PortState := ends.foldl addHoldEnd ps

@[simp] theorem addHoldEnds_nil (ps : PortState) : ps.addHoldEnds [] = ps := rfl

@[simp] theorem addHoldEnds_cons (ps : PortState) (e : HoldEnd) (ends : List HoldEnd) :
    ps.addHoldEnds (e :: ends) = (ps.addHoldEnd e).addHoldEnds ends := rfl

/-- Hold-end records leave what one record leaves. -/
theorem addHoldEnds_field {α : Type} (field : PortState → α) (h : ∀ ps e, field (addHoldEnd ps e) = field ps)
    (ends : List HoldEnd) : ∀ ps : PortState, field (ps.addHoldEnds ends) = field ps := by
  induction ends with
  | nil => intro ps; rfl
  | cons e ends ih => intro ps; rw [addHoldEnds_cons, ih, h]

@[simp] theorem addHoldEnds_inReset (ps : PortState) (ends : List HoldEnd) :
    (ps.addHoldEnds ends).inReset = ps.inReset := addHoldEnds_field (·.inReset) addHoldEnd_inReset ends ps

@[simp] theorem addHoldEnds_reqs (ps : PortState) (ends : List HoldEnd) :
    (ps.addHoldEnds ends).reqs = ps.reqs := addHoldEnds_field (·.reqs) addHoldEnd_reqs ends ps

@[simp] theorem addHoldEnds_notices (ps : PortState) (ends : List HoldEnd) :
    (ps.addHoldEnds ends).notices = ps.notices := addHoldEnds_field (·.notices) addHoldEnd_notices ends ps

/-- Records join up to the four places of the list, and the others are counted, up to 255 (R137). -/
theorem addHoldEnds_added (ends : List HoldEnd) : ∀ ps : PortState, EndsAdded ps (ps.addHoldEnds ends) ends := by
  induction ends with
  | nil => intro ps; simp [EndsAdded]
  | cons e ends ih =>
    intro ps
    have hrest := ih (ps.addHoldEnd e)
    unfold EndsAdded at hrest ⊢
    cases hreset : ps.inReset with
    | true =>
      have hsame : ps.addHoldEnd e = ps := by simp [addHoldEnd, hreset]
      simpa [hreset, hsame] using hrest
    | false =>
      simp only [addHoldEnd_inReset, hreset, Bool.false_eq_true, if_false] at hrest ⊢
      obtain ⟨hends, hlost⟩ := hrest
      rw [addHoldEnds_cons, hends, hlost]
      by_cases hroom : ps.holdEnds.length < 4
      · obtain ⟨k, hk⟩ : ∃ k, 4 - ps.holdEnds.length = k + 1 := ⟨3 - ps.holdEnds.length, by omega⟩
        have hk' : 4 - (ps.holdEnds.length + 1) = k := by omega
        simp [addHoldEnd, hreset, hroom, hk, hk']
      · have hk : 4 - ps.holdEnds.length = 0 := by omega
        simp only [addHoldEnd, hreset, hroom, hk, Bool.false_eq_true, if_false, satInc, List.take_zero,
          List.append_nil, List.length_cons, Nat.sub_zero, noteFrame_holdEnds, true_and]
        split <;> split <;> omega

/-- What completes after hold-end records were given completes as it would have before them. -/
theorem completeAll_addHoldEnds_drained (ps : PortState) (ends : List HoldEnd) (sel : Request → Bool) {st : Status}
    (hdone : st ≠ .done) (hcancelled : st ≠ .cancelled) :
    Drained sel st ps ((ps.addHoldEnds ends).completeAll sel st) := by
  have h := completeAll_drained (ps.addHoldEnds ends) sel hdone hcancelled
  have hfield {α : Type} (field : PortState → α) (hf : ∀ ps e, field (addHoldEnd ps e) = field ps) :
      field (ps.addHoldEnds ends) = field ps := addHoldEnds_field field hf ends ps
  have hresults := hfield (·.results) addHoldEnd_results
  have hfault := hfield (·.postedFault) addHoldEnd_postedFault
  have hreply := hfield (fun ps => ps.frame.map (·.reply)) addHoldEnd_reply
  refine ⟨?_, ?_, ?_, ?_, h.reply.trans hreply⟩
  · simp
  · simpa [hresults] using h.results
  · simpa [hfault] using h.fault
  · simp [hfield (·.role) addHoldEnd_role, hfield (·.framingFlag) addHoldEnd_framingFlag,
      hfield (·.framingCount) addHoldEnd_framingCount, hfield (·.mask) addHoldEnd_mask]

end PortState

namespace State

/-- A segment notice leaves what R52 says of the requests. -/
theorem Drained.addNotices {sel : Request → Bool} {st : Status} {ps ps' : PortState} (h : Drained sel st ps ps')
    (n : NoticeSets) : Drained sel st ps (ps'.addNotices n) := by
  have hreply : (ps'.addNotices n).frame.map (·.reply) = ps'.frame.map (·.reply) := by
    unfold PortState.addNotices
    split
    · rfl
    · cases hf : ps'.frame <;> simp [noteFrame, hf]
  exact ⟨by simpa using h.reqs, by simpa using h.results, by simpa using h.fault, by simpa using h.kept,
    hreply.trans h.reply⟩

/-! ### The holds of the segment (R67) -/

theorem allHolds_nodup : allHolds.Nodup := by decide

theorem mem_allHolds (i : HoldIdx) : i ∈ allHolds := by
  revert i
  decide

/-- The hold of entry `i` ends when its key is on the segment (R67). -/
def endHold (s : State) (g : Seg) (i : HoldIdx) : State :=
  match s.hold i with
  | some e => if e.key.seg == g then
      (s.modifyPort e.holder (·.addHoldEnd ⟨e.key, .segmentOffline⟩)).setHold i none
    else s
  | none => s

theorem endHolds_eq (s : State) (g : Seg) : s.endHolds g = allHolds.foldl (fun s i => s.endHold g i) s := rfl

/-- The hold-end record that entry `i` gives port `q` (R67). -/
def holdLost (s : State) (g : Seg) (q : Port) (i : HoldIdx) : Option HoldEnd :=
  match s.hold i with
  | some e => if e.key.seg = g ∧ e.holder = q then some ⟨e.key, .segmentOffline⟩ else none
  | none => none

theorem holdsLost_eq (s : State) (g : Seg) (q : Port) : s.holdsLost g q = allHolds.filterMap (s.holdLost g q) := rfl

theorem holdLost_congr {s t : State} {i : HoldIdx} (h : t.hold i = s.hold i) (g : Seg) (q : Port) :
    t.holdLost g q i = s.holdLost g q i := by
  rw [holdLost, h]
  rfl

theorem endHold_hold (s : State) (g : Seg) (i k : HoldIdx) : (s.endHold g i).hold k =
    if i = k then (s.hold k).filter fun e => e.key.seg != g else s.hold k := by
  unfold endHold
  by_cases hik : i = k
  · subst hik
    cases hi : s.hold i with
    | none => simp [hi]
    | some e => by_cases hg : e.key.seg = g <;> simp [hg, hi, Option.filter]
  · rw [if_neg hik]
    split
    · split
      · rw [setHold_hold_ne _ hik]
        rfl
      · rfl
    · rfl

theorem endHold_port (s : State) (g : Seg) (i : HoldIdx) (q : Port) :
    (s.endHold g i).port q = (s.port q).addHoldEnds (s.holdLost g q i).toList := by
  unfold endHold holdLost
  cases s.hold i with
  | none => rfl
  | some e =>
    by_cases hg : e.key.seg = g
    · by_cases hq : e.holder = q
      · simp [hg, hq]
      · simp [hg, hq, modifyPort_port]
    · simp [hg]

theorem foldl_endHold_hold (g : Seg) (k : HoldIdx) (l : List HoldIdx) : ∀ s : State,
    (l.foldl (fun s i => s.endHold g i) s).hold k =
      if k ∈ l then (s.hold k).filter fun e => e.key.seg != g else s.hold k := by
  induction l with
  | nil => intro s; rfl
  | cons i l ih =>
    intro s
    rw [List.foldl_cons, ih, endHold_hold]
    by_cases hik : i = k
    · simp [hik, Option.filter_filter]
    · simp [hik, Ne.symm hik]

theorem foldl_endHold_port (g : Seg) (q : Port) (l : List HoldIdx) (hl : l.Nodup) : ∀ s : State,
    (l.foldl (fun s i => s.endHold g i) s).port q = (s.port q).addHoldEnds (l.filterMap (s.holdLost g q)) := by
  induction l with
  | nil => intro s; rfl
  | cons i l ih =>
    intro s
    obtain ⟨hi, hl⟩ := List.nodup_cons.mp hl
    have hrest : l.filterMap ((s.endHold g i).holdLost g q) = l.filterMap (s.holdLost g q) :=
      List.filterMap_congr fun k hk =>
        holdLost_congr (by rw [endHold_hold, if_neg (ne_of_mem_of_not_mem hk hi).symm]) g q
    rw [List.foldl_cons, ih hl, endHold_port, hrest, addHoldEnds, addHoldEnds, ← List.foldl_append]
    cases h : s.holdLost g q i <;> simp [h, addHoldEnds]

theorem endHolds_hold (s : State) (g : Seg) (k : HoldIdx) :
    (s.endHolds g).hold k = (s.hold k).filter fun e => e.key.seg != g := by
  rw [endHolds_eq, foldl_endHold_hold, if_pos (mem_allHolds k)]

theorem endHolds_port (s : State) (g : Seg) (q : Port) :
    (s.endHolds g).port q = (s.port q).addHoldEnds (s.holdsLost g q) := by
  rw [endHolds_eq, foldl_endHold_port g q _ allHolds_nodup, holdsLost_eq]

/-! ### The due list of the segment (R102, R117) -/

/-- A due entry whose segment goes offline: its run completes SEGMENT_OFFLINE, or is dropped when it was to be
discarded (R102, R120). -/
def offlinePoll (e : PollEntry) : PollEntry :=
  if e.discard then { e with mark := .none, discard := false }
  else
    { e with
      mark := .none
      result := { e.result with status := some .segmentOffline, sequence := e.result.sequence + 1 } }

theorem completePoll_segmentOffline (s : State) (n : PollIdx) :
    s.completePoll n .segmentOffline [] = s.setPoll n (offlinePoll (s.poll n)) := by
  unfold completePoll offlinePoll
  cases hd : (s.poll n).discard <;> simp [pollStore, hd]

theorem foldl_offlinePoll_of_notMem (m : PollIdx) (l : List PollIdx) (hm : m ∉ l) : ∀ s : State,
    (l.foldl (fun s n => s.completePoll n .segmentOffline []) s).poll m = s.poll m := by
  induction l with
  | nil => intro s; rfl
  | cons n l ih =>
    intro s
    obtain ⟨hne, hm⟩ := not_or.mp (mt List.mem_cons.mpr hm)
    rw [List.foldl_cons, ih hm, completePoll_segmentOffline, setPoll_poll_ne _ (Ne.symm hne)]

theorem foldl_offlinePoll_of_mem (m : PollIdx) (l : List PollIdx) (hl : l.Nodup) (hm : m ∈ l) : ∀ s : State,
    (l.foldl (fun s n => s.completePoll n .segmentOffline []) s).poll m = offlinePoll (s.poll m) := by
  induction l with
  | nil => cases hm
  | cons n l ih =>
    intro s
    obtain ⟨hn, hl⟩ := List.nodup_cons.mp hl
    rw [List.foldl_cons, completePoll_segmentOffline]
    rcases List.mem_cons.mp hm with rfl | hm
    · rw [foldl_offlinePoll_of_notMem m l hn, setPoll_poll_self]
    · rw [ih hl hm, setPoll_poll_ne _ (ne_of_mem_of_not_mem hm hn).symm]

theorem drainDue_dueOf (s : State) (g h : Seg) : (s.drainDue g).dueOf h = if g = h then [] else s.dueOf h := by
  have hfold : Keeps s ((s.dueOf g).foldl (fun s n => s.completePoll n .segmentOffline []) s) [.polls] :=
    Keeps.foldl (fun s n => completePoll_keeps_of_ne_done s n .segmentOffline [] (by simp)) _ s
  rw [drainDue, setDue_dueOf, hfold.dueOf]

theorem drainDue_poll (s : State) (g : Seg) (n : PollIdx) : (s.drainDue g).poll n =
    ((s.dueOf g).foldl (fun s n => s.completePoll n .segmentOffline []) s).poll n := rfl

/-! ### Going offline -/

theorem goOffline_port (s : State) (g : Seg) (q : Port) : (s.goOffline g).port q =
    (((s.port q).addHoldEnds (s.holdsLost g q)).completeAll (fun r => r.key.seg == g && r.state != .inFlight)
      .segmentOffline).addNotices (.ofSeg g) := by
  rw [goOffline, segmentNotice, mapPorts_port, (drainDue_keeps ..).port, drainLanes, mapPorts_port, endHolds_port]

theorem goOffline_hold (s : State) (g : Seg) (i : HoldIdx) :
    (s.goOffline g).hold i = (s.hold i).filter fun e => e.key.seg != g := by
  rw [goOffline, (segmentNotice_keeps ..).hold, (drainDue_keeps ..).hold, (drainLanes_keeps ..).hold, endHolds_hold]

/-- The holds and the lanes are drained, the due list is not yet. -/
theorem lanesDrained_keeps (s : State) (g : Seg) : Keeps s ((s.endHolds g).drainLanes g) [.holds, .ports] :=
  (endHolds_keeps s g).trans (drainLanes_keeps _ g).mono

theorem goOffline_dueOf (s : State) (g h : Seg) : (s.goOffline g).dueOf h = if g = h then [] else s.dueOf h := by
  rw [goOffline, (segmentNotice_keeps ..).dueOf, drainDue_dueOf, (lanesDrained_keeps s g).dueOf]

theorem goOffline_poll_of_notMem (s : State) (g : Seg) {n : PollIdx} (hn : n ∉ s.dueOf g) :
    (s.goOffline g).poll n = s.poll n := by
  have hk := lanesDrained_keeps s g
  rw [goOffline, (segmentNotice_keeps ..).poll, drainDue_poll, hk.dueOf, foldl_offlinePoll_of_notMem n _ hn, hk.poll]

theorem goOffline_poll_of_mem (s : State) (g : Seg) {n : PollIdx} (hl : (s.dueOf g).Nodup) (hn : n ∈ s.dueOf g) :
    (s.goOffline g).poll n = offlinePoll (s.poll n) := by
  have hk := lanesDrained_keeps s g
  rw [goOffline, (segmentNotice_keeps ..).poll, drainDue_poll, hk.dueOf, foldl_offlinePoll_of_mem n _ hl hn, hk.poll]

/-- A segment's number joins the segment notice set and no other (R102, R105). -/
theorem union_ofSeg (n : NoticeSets) (g : Seg) :
    n.union (.ofSeg g) = { n with seg := n.seg ||| BitVec.twoPow 4 g.val } := by
  simp [NoticeSets.union, NoticeSets.ofSeg, NoticeSets.empty]

theorem goOffline_effects (s : State) (g : Seg) : OfflineEffects s (s.goOffline g) g where
  requests q := by
    rw [goOffline_port]
    exact (completeAll_addHoldEnds_drained (st := .segmentOffline) _ _ _ nofun nofun).addNotices _
  ends q := by
    rw [goOffline_port]
    simpa [EndsAdded] using addHoldEnds_added (s.holdsLost g q) (s.port q)
  notices q := by
    rw [goOffline_port]
    cases hreset : (s.port q).inReset with
    | true => simp [addNotices_inReset_eq, hreset]
    | false => simp [addNotices_notices, hreset, union_ofSeg]
  holds := goOffline_hold s g
  dueEmpty := by rw [goOffline_dueOf, if_pos rfl]
  otherDue h hne := by rw [goOffline_dueOf, if_neg hne.symm]
  otherPolls _ hn := goOffline_poll_of_notMem s g hn
  duePolls hl _ hn := goOffline_poll_of_mem s g hl hn
  otherEngines h _ := (goOffline_keeps s g).engine h
  rest := (goOffline_keeps s g).mono

/-- The engine's own change comes first, and no other block reads it (R101, R103). -/
theorem setEngine_goOffline_effects (s : State) (g : Seg) (x : Engine) :
    OfflineEffects s ((s.setEngine g x).goOffline g) g :=
  have h := goOffline_effects (s.setEngine g x) g
  { requests := h.requests
    ends := h.ends
    notices := h.notices
    holds := h.holds
    dueEmpty := h.dueEmpty
    otherDue := h.otherDue
    otherPolls := h.otherPolls
    duePolls := h.duePolls
    otherEngines := fun k hk => (h.otherEngines k hk).trans (setEngine_engine_ne s hk.symm x)
    rest := (setEngine_keeps ..).mono.trans h.rest }

theorem enterDisabled_effects (s : State) (g : Seg) : OfflineEffects s (s.enterDisabled g) g :=
  setEngine_goOffline_effects ..

theorem enterFaulted_effects (s : State) (g : Seg) (reason : FaultReason) :
    OfflineEffects s (s.enterFaulted g reason) g :=
  setEngine_goOffline_effects ..

end State

/-- Settles O35: the engine's entry and the drain of the other blocks, for both states. -/
theorem goingOfflineDrainsTheSegment : Obligations.GoingOfflineDrainsTheSegment := by
  intro s g
  refine ⟨enterDisabled_effects s g, ?_, fun reason => ⟨enterFaulted_effects s g reason, ?_⟩⟩
  · rw [enterDisabled_engine, if_pos rfl]
  · rw [enterFaulted_engine, if_pos rfl]
    rfl

end Sys2Proof.Machine
end

section
/-! PROOF. The cut of a transaction: what is left of it is what R109's table says. -/

namespace Sys2Proof.Machine

set_option Elab.async false

open State

/-! ### Where a transaction can be cut (R109) -/

/-- Wherever a transaction with these elements before it stands, what the engine finishes at a cut is what R109 says. -/
def Cuttable (l : List BusElement) : Prop := ∀ k, k < l.length → CutShort (l.drop k) (cutShort (l.drop k))

namespace Cuttable

theorem nil : Cuttable [] := nofun

/-- An element at which R109 gives a cut stands before elements that can be cut. -/
theorem cons {e : BusElement} {l : List BusElement} (he : CutShort (e :: l) (cutShort (e :: l))) (h : Cuttable l) :
    Cuttable (e :: l)
  | 0, _ => he
  | k + 1, hk => h k (Nat.lt_of_succ_lt_succ hk)

theorem stop : Cuttable [.stop] := cons (.stop _) nil

theorem address {b : Byte} {l : List BusElement} (h : Cuttable l) : Cuttable (.address b :: l) := cons (.address ..) h

theorem start {b : Byte} {l : List BusElement} (h : Cuttable l) : Cuttable (.start :: .address b :: l) :=
  cons (.start ..) h.address

theorem restart {b : Byte} {l : List BusElement} (h : Cuttable l) : Cuttable (.restart :: .address b :: l) :=
  cons (.restart ..) h.address

theorem writes (bytes : List Byte) {l : List BusElement} (h : Cuttable l) : Cuttable (bytes.map .write ++ l) := by
  induction bytes with
  | nil => exact h
  | cons b bytes ih => exact cons (.write ..) ih

theorem reads (acked : List Bool) {l : List BusElement} (h : Cuttable l) : Cuttable (acked.map .read ++ l) := by
  induction acked with
  | nil => exact h
  | cons a acked ih => exact cons (.read ..) ih

/-- The reads of a transaction and its stop. -/
theorem readElements_stop (w : Work) : Cuttable (w.readElements ++ [.stop]) := by
  have hreads : w.readElements = ((List.range w.readLen).map fun i => i + 1 != w.readLen).map .read := by
    simp [Work.readElements, Function.comp_def]
  rw [hreads]
  exact stop.reads _

/-- A transaction can be cut in each of its elements (R93, R109). -/
theorem elements (w : Work) : Cuttable w.elements := by
  unfold Work.elements
  split
  · rw [List.append_assoc, List.append_assoc]
    refine start (writes _ ?_)
    split
    · exact stop
    · exact restart (readElements_stop w)
  · exact start (readElements_stop w)

/-- What a cut leaves can be cut again (R112). -/
theorem of_cutShort {l rest : List BusElement} (h : CutShort l rest) : Cuttable rest := by
  cases h with
  | start => exact stop.start
  | address => exact stop.address
  | write b => exact stop.writes [b]
  | restart => exact stop.restart
  | read => exact stop.reads [false]
  | stop => exact stop

end Cuttable

/-- What a transaction has before it, by R93 or by R109, can be cut wherever it stands. -/
theorem State.AheadSound.cuttable {x : Transaction} (h : AheadSound x) : Cuttable x.ahead := by
  unfold AheadSound at h
  split at h
  · exact h ▸ .elements _
  · exact h ▸ .elements _
  · obtain ⟨_, h⟩ := h
    exact .of_cutShort h

theorem State.CutShort.ne_nil {l rest : List BusElement} (h : CutShort l rest) : rest ≠ [] := by
  cases h <;> simp

/-- A transaction that is sound has an element before it. -/
theorem State.AheadSound.ahead_ne_nil {x : Transaction} (h : AheadSound x) : x.ahead ≠ [] := by
  have helements (w : Work) : w.elements ≠ [] := by
    unfold Work.elements
    split <;> simp
  unfold AheadSound at h
  split at h
  · exact h ▸ helements _
  · exact h ▸ helements _
  · obtain ⟨_, h⟩ := h
    exact h.ne_nil

/-- The cut of a transaction is the cut R109 describes. -/
theorem Transaction.cut_isCut (x : Transaction) (g : Seg) (now : Nat) (c : CutCause) :
    IsCut x (x.cut g now c) c (now + 1) := by
  refine ⟨rfl, fun h => ?_⟩
  obtain ⟨k, hk, hstanding⟩ := standing_eq x g now h.ahead_ne_nil
  exact ⟨k, by rw [Transaction.cut, hstanding]; exact h.cuttable k hk⟩

end Sys2Proof.Machine
end

section
/-! PROOF. The port reset: its effects on every block (R160). -/

namespace Sys2Proof.Machine

set_option Elab.async false

open State PortState

/-! ### HOLDs granted together (R68, R131) -/

/-- The HOLDs granted together are the open requests that a served waiter names. -/
theorem PortState.grantAll_eq_granted (ps : PortState) (served : List Waiter) :
    ps.grantAll served = granted ps served := by
  have key : ∀ (l : List Request) (ps : PortState),
      l.foldl (fun ps r =>
        match served.find? fun w => w.tag == r.tag with
        | some w => ps.complete r { status := .holdGranted, holdRemaining := some w.limit }
        | none => ps) ps =
      (l.filter fun r => served.any fun w => w.tag == r.tag).foldl (fun ps r => ps.complete r
        { status := .holdGranted, holdRemaining := (served.find? fun w => w.tag == r.tag).map (·.limit) }) ps := by
    intro l
    induction l with
    | nil => intro ps; rfl
    | cons r l ih =>
      intro ps
      rw [List.foldl_cons, ih]
      cases hw : served.find? fun w => w.tag == r.tag with
      | none =>
        have hany : (served.any fun w => w.tag == r.tag) = false := by
          simpa [List.any_eq_false] using List.find?_eq_none.mp hw
        simp [hany]
      | some w =>
        have hany : (served.any fun w => w.tag == r.tag) = true :=
          List.any_eq_true.mpr ⟨w, List.mem_of_find?_eq_some hw,
            List.find?_some (p := fun w : Waiter => w.tag == r.tag) hw⟩
        simp [hany, hw]
  exact key _ _

namespace State

/-- An entry after a port has left the waiters (R54, R68). -/
def withoutPort (e : HoldEntry) (p : Port) : HoldEntry :=
  { e with waiters := e.waiters.filter fun w => w.port != p }

theorem dropWaiters_all_hold (s : State) (p : Port) (i : HoldIdx) :
    (s.dropWaiters p fun _ => true).hold i = (s.hold i).map (withoutPort · p) := by
  rw [dropWaiters, mapHolds_hold]
  congr 1
  funext e
  simp [withoutPort, bne]

/-- The waiters served once the port has left them are those R68 names, port by port. -/
theorem served_dropWaiters (s : State) (p q : Port) :
    ((s.dropWaiters p fun _ => true).served p).filter (fun w => w.port = q) = s.servedBy p q := by
  rw [served, servedBy, List.filter_filterMap]
  refine List.filterMap_congr fun i _ => ?_
  rw [dropWaiters_all_hold]
  cases s.hold i with
  | none => rfl
  | some e =>
    by_cases hp : e.holder = p
    · cases hw : e.waiters.filter fun w => w.port != p with
      | nil => simp [withoutPort, hp, hw]
      | cons w ws => simp [withoutPort, hp, hw, Option.filter]
    · simp [withoutPort, hp]

/-! ### Semaphores freed one after another (R152) -/

theorem allSems_nodup : allSems.Nodup := by decide

theorem mem_allSems (n : SemIdx) : n ∈ allSems := by
  revert n
  decide

/-- Semaphore `n` is freed if the port owns it (R152 step 2). -/
def freeIfOwned (s : State) (p : Port) (n : SemIdx) : State :=
  if (s.sem n).owner = some p then s.freeSem n else s

theorem freeOwned_eq (s : State) (p : Port) : s.freeOwned p = allSems.foldl (fun s n => s.freeIfOwned p n) s := rfl

theorem freeIfOwned_sem (s : State) (p : Port) (n m : SemIdx) : (s.freeIfOwned p n).sem m =
    if n = m ∧ (s.sem m).owner = some p then .free else s.sem m := by
  unfold freeIfOwned
  by_cases hnm : n = m
  · subst hnm
    split <;> simp [*, freeSem_sem]
  · split <;> simp [freeSem_sem, hnm]

/-- Freeing a semaphore of port `p` tells port `q`. -/
def tells (s : State) (p q : Port) (n : SemIdx) : Bool :=
  (s.sem n).owner == some p && (s.sem n).interest.getLsbD q.val

theorem freeIfOwned_port (s : State) (p q : Port) (n : SemIdx) : (s.freeIfOwned p n).port q =
    if s.tells p q n then (s.port q).addNotices (.ofFreed n) else s.port q := by
  unfold freeIfOwned tells
  by_cases ho : (s.sem n).owner = some p <;> simp [ho, freeSem_port]

theorem foldl_freeIfOwned_sem (p : Port) (m : SemIdx) (l : List SemIdx) : ∀ s : State,
    (l.foldl (fun s n => s.freeIfOwned p n) s).sem m =
      if m ∈ l ∧ (s.sem m).owner = some p then .free else s.sem m := by
  induction l with
  | nil => intro s; simp
  | cons n l ih =>
    intro s
    rw [List.foldl_cons, ih, freeIfOwned_sem]
    by_cases ho : (s.sem m).owner = some p
    · by_cases hnm : n = m <;> simp [ho, hnm, Ne.symm, Semaphore.free]
    · simp [ho]

theorem foldl_freeIfOwned_port (p q : Port) (l : List SemIdx) (hl : l.Nodup) : ∀ s : State,
    (l.foldl (fun s n => s.freeIfOwned p n) s).port q =
      (l.filter (s.tells p q)).foldl (fun ps n => ps.addNotices (.ofFreed n)) (s.port q) := by
  induction l with
  | nil => intro s; rfl
  | cons n l ih =>
    intro s
    obtain ⟨hn, hl⟩ := List.nodup_cons.mp hl
    have hrest : l.filter ((s.freeIfOwned p n).tells p q) = l.filter (s.tells p q) :=
      List.filter_congr fun m hm => by
        rw [tells, freeIfOwned_sem, if_neg fun h => ne_of_mem_of_not_mem hm hn h.1.symm]
        rfl
    rw [List.foldl_cons, ih hl, freeIfOwned_port, hrest, List.filter_cons]
    split <;> rfl

theorem freeOwned_sem (s : State) (p : Port) (n : SemIdx) : (s.freeOwned p).sem n =
    if (s.sem n).owner = some p then .free else s.sem n := by
  simp [freeOwned_eq, foldl_freeIfOwned_sem, mem_allSems]

theorem freeOwned_port (s : State) (p q : Port) : (s.freeOwned p).port q =
    (allSems.filter (s.tells p q)).foldl (fun ps n => ps.addNotices (.ofFreed n)) (s.port q) := by
  rw [freeOwned_eq, foldl_freeIfOwned_port p q _ allSems_nodup]

/-- A port that has left the interest sets is told of nothing (R152). -/
theorem dropInterest_tells_self (s : State) (p : Port) (n : SemIdx) : (s.dropInterest p).tells p p n = false := by
  rw [tells, dropInterest_sem]
  simp

theorem dropInterest_tells_other (s : State) {p q : Port} (h : q ≠ p) (n : SemIdx) :
    (s.dropInterest p).tells p q n = s.tells p q n := by
  have hpq : q.val ≠ p.val := fun e => h (Fin.ext e)
  rw [tells, tells, dropInterest_sem]
  simp [hpq]

/-! ### The port reset (R160) -/

/-- The port reset before its semaphores: the port cleared, its transactions cut, and its holds handed over. -/
def resetBlocks (s : State) (p : Port) : State :=
  ((((s.modifyPort p clearedPort).mapEngines
    (Engine.cutPort p s.freeCount)).draw.dropWaiters p fun _ => true).handOverAll
    p).mapArbiters fun a => { a with deficits := a.deficits.set p.val 0 (by omega) }

theorem resetPort_eq (s : State) (p : Port) : s.resetPort p = ((s.resetBlocks p).dropInterest p).freeOwned p := rfl

theorem resetBlocks_port (s : State) (p q : Port) : (s.resetBlocks p).port q =
    if p = q then clearedPort (s.port q) else (s.port q).grantAll (s.servedBy p q) := by
  have hserved : (((s.modifyPort p clearedPort).mapEngines (Engine.cutPort p s.freeCount)).draw.dropWaiters p
      fun _ => true).served p = (s.dropWaiters p fun _ => true).served p := rfl
  rw [resetBlocks, mapArbiters_port, handOverAll_port, hserved, served_dropWaiters, (dropWaiters_keeps ..).port,
    draw_port, mapEngines_port, modifyPort_port]
  split
  · rfl
  · rfl

theorem resetBlocks_sem (s : State) (p : Port) (n : SemIdx) : (s.resetBlocks p).sem n = s.sem n := rfl

theorem resetPort_port_self (s : State) (p : Port) : (s.resetPort p).port p = clearedPort (s.port p) := by
  have hnone : allSems.filter (((s.resetBlocks p).dropInterest p).tells p p) = [] :=
    List.filter_eq_nil_iff.mpr fun n _ => by simp [dropInterest_tells_self]
  rw [resetPort_eq, freeOwned_port, hnone, List.foldl_nil, (dropInterest_keeps ..).port, resetBlocks_port, if_pos rfl]

theorem resetPort_port_other (s : State) {p q : Port} (h : q ≠ p) : (s.resetPort p).port q =
    (allSems.filter (s.tells p q)).foldl (fun ps n => ps.addNotices (.ofFreed n))
      ((s.port q).grantAll (s.servedBy p q)) := by
  have htells : ((s.resetBlocks p).dropInterest p).tells p q = s.tells p q :=
    funext fun n => dropInterest_tells_other (s.resetBlocks p) h n
  rw [resetPort_eq, freeOwned_port, htells, (dropInterest_keeps ..).port, resetBlocks_port, if_neg h.symm]

theorem resetPort_hold (s : State) (p : Port) (i : HoldIdx) : (s.resetPort p).hold i =
    ((s.hold i).map (withoutPort · p)).bind fun e => if e.holder = p then e.handedOver else some e := by
  rw [resetPort_eq, (freeOwned_keeps ..).hold, (dropInterest_keeps ..).hold, resetBlocks, mapArbiters_hold,
    handOverAll_hold, dropWaiters_all_hold]
  rfl

theorem resetPort_engine (s : State) (p : Port) (g : Seg) :
    (s.resetPort p).engine g = (s.engine g).cutPort p s.freeCount g := by
  rw [resetPort_eq, (freeOwned_keeps ..).engine, (dropInterest_keeps ..).engine]
  exact mapEngines_engine ..

theorem resetPort_freeCount (s : State) (p : Port) : (s.resetPort p).freeCount = s.freeCount + 1 := by
  rw [resetPort_eq, (freeOwned_keeps ..).freeCount, (dropInterest_keeps ..).freeCount]
  rfl

theorem resetPort_sem (s : State) (p : Port) (n : SemIdx) : (s.resetPort p).sem n =
    if (s.sem n).owner = some p then .free
    else { s.sem n with interest := (s.sem n).interest &&& ~~~(BitVec.twoPow 3 p.val) } := by
  rw [resetPort_eq, freeOwned_sem, dropInterest_sem, resetBlocks_sem]

theorem resetPort_arbiter (s : State) (p : Port) (g : Seg) : (s.resetPort p).arbiter g =
    { s.arbiter g with deficits := (s.arbiter g).deficits.set p.val 0 (by omega) } := by
  rw [resetPort_eq, (freeOwned_keeps ..).arbiter, (dropInterest_keeps ..).arbiter, resetBlocks, mapArbiters_arbiter]
  rfl

/-- The port whose transaction it is has it cut (R49, R110). -/
theorem cutPort_of_carrier {e : Engine} {x : Transaction} {p : Port} (hstate : e.state = .active x)
    (hcarrier : x.carrier = .port p) (now : Nat) (g : Seg) :
    e.cutPort p now g = { e with state := .active (x.cut g now .portReset) } := by
  rw [Engine.cutPort, hstate]
  exact if_pos hcarrier

theorem cutPort_of_not_carrier {e : Engine} {p : Port} (h : ∀ x, e.state = .active x → x.carrier ≠ .port p) (now : Nat)
    (g : Seg) : e.cutPort p now g = e := by
  unfold Engine.cutPort
  split
  · next x hx => exact if_neg (h x hx)
  · rfl

theorem resetPort_effects (s : State) (p : Port) : PortResetEffects s (s.resetPort p) p where
  own := resetPort_port_self s p
  others q hq := by
    rw [resetPort_port_other s hq, grantAll_eq_granted]
    rfl
  holds i := by
    rw [resetPort_hold]
    cases s.hold i with
    | none => rfl
    | some e =>
      by_cases hp : e.holder = p
      · cases hw : e.waiters.filter fun w => w.port != p <;> simp [withoutPort, hp, hw, HoldEntry.handedOver]
      · simp [withoutPort, hp]
  sems := resetPort_sem s p
  arbiters := resetPort_arbiter s p
  cut g x hstate hcarrier :=
    ⟨x.cut g s.freeCount .portReset, by rw [resetPort_freeCount]; exact x.cut_isCut g s.freeCount _,
      by rw [resetPort_engine, cutPort_of_carrier hstate hcarrier]⟩
  notCut g h := by rw [resetPort_engine, cutPort_of_not_carrier h]
  rest := resetPort_keeps s p

end State

/-- Settles O5: the effects block by block. -/
theorem portResetEffectsOnEveryBlock : Obligations.PortResetEffectsOnEveryBlock := resetPort_effects

end Sys2Proof.Machine
end

section
/-! PROOF. The HUB RESET: its effects on every block (R164). -/

namespace Sys2Proof.Machine

set_option Elab.async false

open State PortState

namespace State

/-! ### The segment notices of a HUB RESET (R112, R145) -/

theorem engine_endsDisabled (s : State) (g : Seg) : (s.engine g).endsDisabled = s.endsDisabled g := by
  unfold Engine.endsDisabled endsDisabled
  cases (s.engine g).state <;> rfl

/-- The notice sets after the segments in the list that end DISABLED have joined them. -/
def withDisabled (s : State) (n : NoticeSets) (l : List Seg) : NoticeSets :=
  l.foldl (fun n g => if s.endsDisabled g then n.union (.ofSeg g) else n) n

theorem withDisabled_allSegs (s : State) : s.withDisabled .empty allSegs = ⟨0, s.hubResetNotices, 0, 0⟩ := by
  unfold withDisabled hubResetNotices allSegs
  generalize s.endsDisabled = b
  simp only [List.foldl_cons, List.foldl_nil]
  cases b 0 <;> cases b 1 <;> cases b 2 <;> cases b 3 <;> rfl

/-- A port told of each segment in the list that ends DISABLED. -/
def tellDisabled (s : State) (l : List Seg) (ps : PortState) : PortState :=
  l.foldl (fun ps g => if s.endsDisabled g then ps.addNotices (.ofSeg g) else ps) ps

theorem tellDisabled_inReset (s : State) (l : List Seg) : ∀ ps : PortState, ps.inReset = true →
    s.tellDisabled l ps = ps := by
  induction l with
  | nil => intro ps _; rfl
  | cons g l ih =>
    intro ps h
    have hsame : (if s.endsDisabled g then ps.addNotices (.ofSeg g) else ps) = ps := by
      split
      · exact addNotices_inReset_eq _ _ h
      · rfl
    rw [tellDisabled, List.foldl_cons, hsame]
    exact ih ps h

/-- A frame in progress that remembers no added members stays as it is. -/
theorem tellDisabled_running (s : State) (l : List Seg) : ∀ ps : PortState, ps.inReset = false →
    (∀ n, ps.noteFrame (·.noteAdded n) = ps) →
    s.tellDisabled l ps = { ps with notices := s.withDisabled ps.notices l } := by
  induction l with
  | nil => intro ps _ _; rfl
  | cons g l ih =>
    intro ps h hquiet
    rw [tellDisabled, List.foldl_cons, withDisabled, List.foldl_cons]
    cases s.endsDisabled g with
    | false => exact ih ps h hquiet
    | true =>
      have htold : ps.addNotices (.ofSeg g) = { ps with notices := ps.notices.union (.ofSeg g) } := by
        rw [PortState.addNotices, hquiet]
        simp [h]
      simp only [if_true, htold]
      exact ih _ h fun n => congrArg (fun x : PortState => { x with notices := ps.notices.union (.ofSeg g) }) (hquiet n)

theorem hubReset_port (s : State) (q : Port) : s.hubReset.port q = s.tellDisabled allSegs (s.port q).hubReset := by
  have key : ∀ (l : List Seg) (t : State),
      (l.foldl (fun t g => if (s.engine g).endsDisabled then t.segmentNotice g else t) t).port q =
        s.tellDisabled l (t.port q) := by
    intro l
    induction l with
    | nil => intro t; rfl
    | cons g l ih =>
      intro t
      rw [List.foldl_cons, ih, engine_endsDisabled, tellDisabled, tellDisabled, List.foldl_cons]
      cases s.endsDisabled g
      · rfl
      · exact congrArg (s.tellDisabled l) (mapPorts_port t (fun _ ps => ps.addNotices (.ofSeg g)) q)
  have hcleared : s.hubCleared.port q = (s.port q).hubReset := mapPorts_port s (fun _ ps => ps.hubReset) q
  rw [hubReset, key, hcleared]

/-- A frame in progress is left with nothing to remove, and remembers nothing that is added (R133, R164). -/
theorem hubReset_quiet (ps : PortState) (n : NoticeSets) : ps.hubReset.noteFrame (·.noteAdded n) = ps.hubReset := by
  have hsnapshot (x : Snapshot) : x.afterHubReset.noteAdded n = x.afterHubReset := by cases x <;> rfl
  cases hf : ps.frame <;> simp [PortState.hubReset, clearedPort, noteFrame, hf, hsnapshot]

/-- A port after a HUB RESET: its port-reset values, and the notices of the segments that end DISABLED (R145, R164). -/
theorem hubReset_port_eq (s : State) (q : Port) : s.hubReset.port q =
    { (s.port q).hubReset with notices := ⟨0, if (s.port q).inReset then 0 else s.hubResetNotices, 0, 0⟩ } := by
  rw [hubReset_port]
  cases h : (s.port q).inReset with
  | true => exact tellDisabled_inReset s _ _ h
  | false =>
    rw [tellDisabled_running s _ (s.port q).hubReset h (hubReset_quiet _)]
    exact congrArg (fun n => { (s.port q).hubReset with notices := n }) (withDisabled_allSegs s)

/-! ### The other blocks (R164) -/

theorem hubReset_keeps_cleared (s : State) : Keeps s.hubCleared s.hubReset [.ports] := by
  refine Keeps.foldl (fun t g => ?_) _ _
  split
  · exact segmentNotice_keeps ..
  · exact .refl ..

theorem afterHubReset_eq (x : Snapshot) : x.afterHubReset = if x = .hubReset then .hubReset else .none := by
  cases x <;> rfl

theorem hubReset_engine (s : State) (g : Seg) : s.hubReset.engine g = (s.engine g).hubReset s.freeCount g := by
  rw [(hubReset_keeps_cleared s).engine]
  exact mapEngines_engine ..

theorem hubReset_freeCount (s : State) : s.hubReset.freeCount = s.freeCount + 1 :=
  (hubReset_keeps_cleared s).freeCount

/-- Where a HUB RESET sends an engine, state by state (R112, log 11). -/
theorem hubResetState_hubReset (e : EngineState) (g : Seg) (now : Nat) :
    HubResetState e (e.hubReset g now) (now + 1) := by
  cases e with
  | active x => exact ⟨_, x.cut_isCut g now .hubReset, rfl⟩
  | recovering step marks h => cases step <;> rfl
  | idle | checking | faulted | disabled => rfl

theorem hubReset_effects (s : State) : HubResetEffects s s.hubReset where
  ports q := by rw [hubReset_port_eq]; rfl
  frames q := by
    rw [hubReset_port_eq]
    cases hf : (s.port q).frame <;> simp [PortState.hubReset, clearedPort, noteFrame, hf, afterHubReset_eq]
  holds i := ((hubReset_keeps_cleared s).hold i).trans (Vector.getElem_replicate i.isLt)
  sems n := ((hubReset_keeps_cleared s).sem n).trans (Vector.getElem_replicate n.isLt)
  arbiters g := ((hubReset_keeps_cleared s).arbiter g).trans (mapArbiters_arbiter ..)
  engines g := by
    rw [hubReset_engine, hubReset_freeCount]
    exact ⟨hubResetState_hubReset .., rfl⟩
  polls n := ((hubReset_keeps_cleared s).poll n).trans (mapPolls_poll ..)
  due g := ((hubReset_keeps_cleared s).dueOf g).trans (mapDue_dueOf s (fun _ => []) g)
  rest := State.hubReset_keeps s

end State

/-- Settles O7: the effects block by block, for the snapshot that a HUB RESET which passed its checks leaves. -/
theorem hubResetEffectsOnEveryBlock : Obligations.HubResetEffectsOnEveryBlock := by
  intro s p f hrun hf hkind
  have hexec : exec (.hubResetNormalEnd p) s =
      .next (if f.snapshot = .hubReset then (s.noFrame p).hubReset else s.noFrame p) :=
    congrArg Host.Outcome.next (frameEnd_running hrun hf hkind)
  refine ⟨fun hsnap => ⟨_, by rw [hexec, if_pos hsnap], hubReset_effects _⟩, fun hsnap => ?_⟩
  rw [hexec, if_neg hsnap]

end Sys2Proof.Machine
end

section
/-! PROOF. CANCEL and LANE INSPECT (R45, R48). -/

namespace Sys2Proof.Machine

set_option Elab.async false

open State PortState

variable {s : State} {p : Port} {tag : Byte} {r : Request}

/-! ### CANCEL (R45) -/

theorem exec_cancel (hrun : s.running p = true) : exec (.cancel p tag) s =
    .next (((s.noFrame p).cancelReq p tag).1.answers p .cancel
      (answer .cancel ((s.noFrame p).cancelReq p tag).2 [tag])) :=
  congrArg Host.Outcome.next (frameOf_running hrun)

theorem noFrame_find : ((s.noFrame p).port p).find tag = (s.port p).reqs.find? fun x => x.tag == tag := by
  rw [PortState.find, noFrame_port_reqs]

theorem cancelReq_unknown (h : (s.port p).find tag = none) : s.cancelReq p tag = (s, .unknownTag) := by
  simp [cancelReq, h]

theorem cancelReq_inFlight (h : (s.port p).find tag = some r) (hr : r.state = .inFlight) :
    s.cancelReq p tag = (s, .inFlight) := by
  simp [cancelReq, h, hr]

theorem cancelReq_queued (h : (s.port p).find tag = some r) (hr : r.state = .queued) :
    s.cancelReq p tag = (s.completeReq p r { status := .cancelled }, .ok) := by
  simp [cancelReq, h, hr]

theorem cancelReq_waitingHold (h : (s.port p).find tag = some r) (hr : r.state = .waitingHold) :
    s.cancelReq p tag = ((s.dropWaiters p (· == tag)).completeReq p r { status := .cancelled }, .ok) := by
  simp [cancelReq, h, hr]

/-- A cancelled request leaves a record exactly when it is not posted (R17). -/
theorem complete_cancelled {ps : PortState} (h : ps.inReset = false) (r : Request) :
    ps.complete r { status := .cancelled } =
      { ps with
        reqs := ps.reqs.eraseP fun x => x.tag == r.tag
        results := ps.results ++ if r.posted then [] else [⟨r.tag, r.kind, .cancelled, 0, [], none⟩] } := by
  cases hp : r.posted with
  | true => simp [complete_posted_silent ps r { status := .cancelled } hp (.inr rfl)]
  | false => simp [complete_nonposted ps r { status := .cancelled } h hp, Ending.record]

/-- A request completes CANCELLED, and the frame is answered OK. -/
theorem completeReq_cancelled_answers (hrun : s.running p = true) (htag : r.tag = tag) :
    ((s.noFrame p).completeReq p r { status := .cancelled }).answers p .cancel (answer .cancel .ok [tag]) =
      s.modifyPort p fun ps =>
        { answered ps .cancel 2 [0x00, tag] .none with
          reqs := ps.reqs.eraseP fun x => x.tag == tag
          results := ps.results ++ if r.posted then [] else [⟨tag, r.kind, .cancelled, 0, [], none⟩] } := by
  obtain ⟨-, hreset⟩ := (running_iff s p).mp hrun
  rw [completeReq, noFrame_modifyPort, answers, modifyPort_modifyPort, modifyPort, modifyPort]
  congr 1
  dsimp only
  rw [complete_cancelled (by exact hreset), htag]
  rfl

/-- Settles O15, by what the tag finds and by the state of the request it finds. -/
theorem cancelByRequestState : Obligations.CancelByRequestState := by
  intro s p tag hrun
  refine ⟨fun hnone => ?_, fun r hr => ⟨fun hstate => ?_, fun hstate => ?_, fun hstate => ?_⟩⟩
  · have hfind : ((s.noFrame p).port p).find tag = none := by
      rw [noFrame_find]
      exact List.find?_eq_none.mpr fun r hr => by simpa using hnone r hr
    rw [exec_cancel hrun, cancelReq_unknown hfind, noFrame_answers]
    rfl
  · rw [exec_cancel hrun, cancelReq_inFlight (noFrame_find.trans hr) hstate, noFrame_answers]
    rfl
  · have htag : r.tag = tag := by simpa using List.find?_some hr
    rw [exec_cancel hrun, cancelReq_queued (noFrame_find.trans hr) hstate, completeReq_cancelled_answers hrun htag]
  · have htag : r.tag = tag := by simpa using List.find?_some hr
    have hrun' : (s.dropWaiters p (· == tag)).running p = true := hrun
    rw [exec_cancel hrun, cancelReq_waitingHold (noFrame_find.trans hr) hstate]
    exact congrArg Host.Outcome.next (completeReq_cancelled_answers hrun' htag)

/-! ### LANE INSPECT (R48) -/

theorem flatMap_laneEntry_length (l : List Request) : (l.flatMap laneEntry).length = 4 * l.length := by
  induction l with
  | nil => rfl
  | cons r l ih =>
    rw [List.flatMap_cons, List.length_append, ih, List.length_cons]
    simp only [laneEntry, List.length_cons, List.length_nil]
    omega

/-- The reply of LANE INSPECT has 16 places, those after the last request reading 0x00 (R48). -/
theorem answer_laneInspect {l : List Request} (h : l.length ≤ 16) :
    answer .laneInspect .ok (byte l.length :: l.flatMap laneEntry) =
      [0x00, byte l.length] ++ l.flatMap laneEntry ++ List.replicate (64 - 4 * l.length) 0x00 := by
  have hlen := flatMap_laneEntry_length l
  have hfit : (ReplyStatus.ok.code :: byte l.length :: l.flatMap laneEntry).length ≤
      FrameKind.laneInspect.replyLen := by
    simp only [List.length_cons, hlen, FrameKind.replyLen]
    omega
  rw [answer, padTo_eq hfit]
  simp only [List.length_cons, hlen, FrameKind.replyLen]
  congr 2
  omega

/-- Settles O16: the frame acts on nothing, and its reply has its 16 places filled in admission order. -/
theorem laneInspectListsOpenRequests : Obligations.LaneInspectListsOpenRequests := by
  intro s p hrun hlen
  refine congrArg Host.Outcome.next (frameOf_reading hrun ?_)
  dsimp only
  rw [noFrame_port_reqs, answer_laneInspect hlen]
  rfl

end Sys2Proof.Machine
end

section
/-! PROOF. The hold table read by key, and the heads of the lanes: settlements and candidates (R42, R53, R55, R56, R73,
R74). -/

namespace Sys2Proof.Machine

set_option Elab.async false

open State PortState

variable {s : State} {p : Port} {g : Seg} {r : Request} {k : Key} {i : HoldIdx} {e : HoldEntry}

/-! ### The hold table by key (R53) -/

namespace State

theorem entryOf_some (h : s.entryOf k = some i) : ∃ e, s.hold i = some e ∧ e.key = k := by
  have hi := List.find?_some h
  cases he : s.hold i with
  | none => simp [he] at hi
  | some e => exact ⟨e, rfl, by simpa [he] using hi⟩

theorem entryOf_none (h : ∀ i e, s.hold i = some e → e.key ≠ k) : s.entryOf k = none := by
  cases hk : s.entryOf k with
  | none => rfl
  | some i =>
    obtain ⟨e, he, hkey⟩ := entryOf_some hk
    exact absurd hkey (h i e he)

/-- With one entry for a key, the table finds it (R53). -/
theorem entryOf_of_hold (hu : HoldKeysUnique s) (he : s.hold i = some e) (hk : e.key = k) : s.entryOf k = some i := by
  cases hj : s.entryOf k with
  | none =>
    have hi := List.find?_eq_none.mp hj i (mem_allHolds i)
    simp [he, hk] at hi
  | some j =>
    obtain ⟨x, hx, hkey⟩ := entryOf_some hj
    exact congrArg some (hu j i x e hx he (hkey.trans hk.symm))

theorem holderOf_eq_none : s.holderOf k = none ↔ ∀ i e, s.hold i = some e → e.key ≠ k := by
  refine ⟨fun h i e he hk => ?_, fun h => by simp [holderOf, entryOf_none h]⟩
  cases hj : s.entryOf k with
  | none =>
    have hi := List.find?_eq_none.mp hj i (mem_allHolds i)
    simp [he, hk] at hi
  | some j =>
    obtain ⟨x, hx, -⟩ := entryOf_some hj
    simp [holderOf, hj, hx] at h

theorem holderOf_of_hold (hu : HoldKeysUnique s) (he : s.hold i = some e) (hk : e.key = k) :
    s.holderOf k = some e.holder := by
  simp [holderOf, entryOf_of_hold hu he hk, he]

/-- The key is free, or the port holds it (R73). -/
theorem holderOf_free_or_own (hu : HoldKeysUnique s) : s.holderOf k = none ∨ s.holderOf k = some p ↔
    ∀ i e, s.hold i = some e → e.key = k → e.holder = p := by
  constructor
  · intro h i e he hk
    simpa [holderOf_of_hold hu he hk] using h
  · intro h
    cases hj : s.holderOf k with
    | none => exact .inl rfl
    | some q =>
      obtain ⟨i, e, he, hk⟩ : ∃ i e, s.hold i = some e ∧ e.key = k := by
        by_contra hno
        push Not at hno
        simp [holderOf_eq_none.mpr hno] at hj
      rw [holderOf_of_hold hu he hk] at hj
      exact .inr (hj.symm.trans (congrArg some (h i e he hk)))

/-- The lowest-numbered free entry (R53). -/
theorem freeEntry_of_lowest (hi : s.hold i = none) (hlow : ∀ j, j < i → s.hold j ≠ none) : s.freeEntry = some i := by
  have hplace : ∀ j : HoldIdx, allHolds[j.val] = j := by decide
  refine List.find?_eq_some_iff_getElem.mpr ⟨by simp [hi], i.val, i.isLt, hplace i, fun j hj => ?_⟩
  have hused := hlow ⟨j, hj.trans i.isLt⟩ hj
  rw [hplace ⟨j, hj.trans i.isLt⟩]
  simpa [Option.isSome_iff_ne_none] using hused

theorem freeEntry_of_full (h : ∀ i, s.hold i ≠ none) : s.freeEntry = none :=
  List.find?_eq_none.mpr fun i _ => by simpa [Option.isNone_iff_eq_none] using h i

/-! ### Settlements (R55, R56) -/

theorem settleable_iff (k : Kind) : s.settleable p g k = some r ↔ (s.port p).readyHead g = some r ∧ r.kind = k := by
  unfold settleable
  constructor
  · intro h
    split at h
    · next x hx =>
      obtain ⟨hk, rfl⟩ : x.kind = k ∧ x = r := by simpa using h
      exact ⟨hx, hk⟩
    · simp at h
  · rintro ⟨hr, hk⟩
    simp [hr, hk]

theorem settleHold_granted (hfree : ∀ i e, s.hold i = some e → e.key ≠ r.key) (hi : s.freeEntry = some i) :
    s.settleHold p r = (s.setHold i (some ⟨r.key, p, r.holdLimit.getD 1, []⟩)).completeReq p r
      { status := .holdGranted, holdRemaining := some (r.holdLimit.getD 1) } := by
  simp [settleHold, entryOf_none hfree, hi]

theorem settleHold_full (hfree : ∀ i e, s.hold i = some e → e.key ≠ r.key) (hfull : s.freeEntry = none) :
    s.settleHold p r = s.completeReq p r { status := .holdTableFull } := by
  simp [settleHold, entryOf_none hfree, hfull]

theorem settleHold_own (hi : s.entryOf r.key = some i) (he : s.hold i = some e) (hp : e.holder = p) :
    s.settleHold p r = s.completeReq p r { status := .alreadyHolding } := by
  simp [settleHold, hi, he, hp]

theorem settleHold_waits (hi : s.entryOf r.key = some i) (he : s.hold i = some e) (hp : e.holder ≠ p) :
    s.settleHold p r =
      (s.setHold i (some { e with waiters := e.waiters ++ [⟨p, r.tag, r.holdLimit.getD 1⟩] })).modifyPort p
        (·.setReqState r.tag .waitingHold) := by
  simp [settleHold, hi, he, hp]

theorem settleRelease_own (hi : s.entryOf r.key = some i) (he : s.hold i = some e) (hp : e.holder = p) :
    s.settleRelease p r = (s.handOver i).completeReq p r { status := .released } := by
  simp [settleRelease, hi, he, hp]

theorem settleRelease_other (h : ∀ i e, s.hold i = some e → e.key = r.key → e.holder ≠ p) :
    s.settleRelease p r = s.completeReq p r { status := .notHolder } := by
  unfold settleRelease
  split
  · next i hi =>
    obtain ⟨e, he, hk⟩ := entryOf_some hi
    simp [he, h i e he hk]
  · rfl

end State

theorem exec_holdSettlement (hheld : s.held = false) (hr : (s.port p).readyHead g = some r) (hk : r.kind = .hold) :
    exec (.holdSettlement p g) s = .next (s.settleHold p r) := by
  refine congrArg Host.Outcome.next ((hubEvent_running hheld).trans ?_)
  simp [(settleable_iff .hold).mpr ⟨hr, hk⟩]

theorem exec_releaseSettlement (hheld : s.held = false) (hr : (s.port p).readyHead g = some r)
    (hk : r.kind = .release) : exec (.releaseSettlement p g) s = .next (s.settleRelease p r) := by
  refine congrArg Host.Outcome.next ((hubEvent_running hheld).trans ?_)
  simp [(settleable_iff .release).mpr ⟨hr, hk⟩]

theorem settleable_eq_none {k : Kind} (h : ∀ r, (s.port p).readyHead g = some r → r.kind ≠ k) :
    s.settleable p g k = none := by
  cases hr : s.settleable p g k with
  | none => rfl
  | some r =>
    obtain ⟨hhead, hk⟩ := (settleable_iff k).mp hr
    exact absurd hk (h r hhead)

/-- An event of the hub that does nothing where RESETN is high does nothing (log 2). -/
theorem hubEvent_eq_self {act : State → State} (h : act s = s) : hubEvent act s = s := by
  rw [hubEvent, h, ite_self]

/-- Settles O41, by what the hold table has for the key of the request. -/
theorem settlementsAgainstTheHoldTable : Obligations.SettlementsAgainstTheHoldTable := by
  refine ⟨fun s p g r hheld hu hr hk => ⟨fun hfree => ⟨fun i hi hlow => ?_, fun hfull => ?_⟩,
    fun i e he hkey => ⟨fun hp => ?_, fun hp => ?_⟩⟩,
    fun s p g r hheld hu hr hk => ⟨fun i e he hkey hp => ?_, fun hother => ?_⟩,
    fun s p g => ⟨fun hnone => ?_, fun hnone => ?_⟩⟩
  · rw [exec_holdSettlement hheld hr hk, settleHold_granted hfree (freeEntry_of_lowest hi hlow)]
  · rw [exec_holdSettlement hheld hr hk, settleHold_full hfree (freeEntry_of_full hfull)]
  · rw [exec_holdSettlement hheld hr hk, settleHold_own (entryOf_of_hold hu he hkey) he hp]
  · rw [exec_holdSettlement hheld hr hk, settleHold_waits (entryOf_of_hold hu he hkey) he hp]
    rfl
  · rw [exec_releaseSettlement hheld hr hk, settleRelease_own (entryOf_of_hold hu he hkey) he hp]
  · rw [exec_releaseSettlement hheld hr hk, settleRelease_other hother]
  · exact congrArg Host.Outcome.next (hubEvent_eq_self (by simp [settleable_eq_none hnone]))
  · exact congrArg Host.Outcome.next (hubEvent_eq_self (by simp [settleable_eq_none hnone]))

/-! ### The head of a lane (R38, R39) -/

namespace PortState

theorem headFrom_of_split {before : List Request} (hbefore : ∀ x ∈ before, x.key.seg ≠ g) (hr : r.key.seg = g)
    (after : List Request) : ∀ older, headFrom g older (before ++ r :: after) = some (older ++ before, r) := by
  induction before with
  | nil => intro older; simp [headFrom, hr]
  | cons x before ih =>
    intro older
    obtain ⟨hx, hbefore⟩ := List.forall_mem_cons.mp hbefore
    simp [headFrom, hx, ih hbefore]

theorem fenceBlocked_eq_false {older : List Request} : fenceBlocked older r = false ↔
    (r.fence = true → older = []) ∧ ∀ x ∈ older, x.fence = false := by
  cases hf : r.fence <;> simp [fenceBlocked, hf]

/-- A ready head is a QUEUED request with no older one of its lane and none that blocks it (R38, R39). -/
theorem readyHead_iff {ps : PortState} : ps.readyHead g = some r ↔
    ∃ before after, ps.reqs = before ++ r :: after ∧ (∀ x ∈ before, x.key.seg ≠ g) ∧ r.key.seg = g ∧
      r.state = .queued ∧ fenceBlocked before r = false := by
  constructor
  · intro h
    obtain ⟨hstate, hg, before, after, hsplit, hfence, hbefore⟩ := readyHead_some h
    exact ⟨before, after, hsplit, hbefore, hg, hstate, hfence⟩
  · rintro ⟨before, after, hsplit, hbefore, hg, hstate, hfence⟩
    simp [readyHead, hsplit, headFrom_of_split hbefore hg, hstate, hfence]

end PortState

/-! ### Candidates (R73, R74) -/

namespace State

theorem portCandidate_iff : s.portCandidate g p = some r ↔ (s.port p).readyHead g = some r ∧ r.kind.usesBus = true ∧
    (s.holderOf r.key = none ∨ s.holderOf r.key = some p) := by
  unfold portCandidate
  constructor
  · intro h
    split at h
    · next x hx =>
      obtain ⟨hc, rfl⟩ := by simpa only [Option.ite_none_right_eq_some, Option.some.injEq] using h
      exact ⟨hx, hc⟩
    · simp at h
  · rintro ⟨hr, hc⟩
    simp only [hr]
    exact if_pos hc

end State

/-- Settles O36: a ready head whose key R73 allows, and the first due entry whose key R74 allows. -/
theorem candidatesAreEligibleHeads : Obligations.CandidatesAreEligibleHeads := by
  intro s g hu
  refine ⟨fun p r => ?_, fun n => ?_⟩
  · rw [portCandidate_iff, readyHead_iff, holderOf_free_or_own hu]
    simp only [fenceBlocked_eq_false]
    constructor
    · rintro ⟨⟨before, after, hsplit, hbefore, hg, hstate, hfence, holder⟩, hbus, hkey⟩
      exact ⟨before, after, hsplit, hbefore, hg, hstate, hbus, hfence, holder, hkey⟩
    · rintro ⟨before, after, hsplit, hbefore, hg, hstate, hbus, hfence, holder, hkey⟩
      exact ⟨⟨before, after, hsplit, hbefore, hg, hstate, hfence, holder⟩, hbus, hkey⟩
  · have hfree (m : PollIdx) : (s.holderOf (s.pollKey m)).isNone = true ↔
        ∀ i e, s.hold i = some e → e.key ≠ s.pollKey m := by
      rw [Option.isNone_iff_eq_none, holderOf_eq_none]
    rw [pollCandidate, List.find?_eq_some_iff_append, hfree]
    simp only [Bool.not_eq_true', ← Bool.not_eq_true, hfree]
    push Not
    exact ⟨fun ⟨hn, before, after, h⟩ => ⟨before, after, h.1, hn, h.2⟩,
      fun ⟨before, after, hsplit, hn, hbefore⟩ => ⟨hn, before, after, hsplit, hbefore⟩⟩

end Sys2Proof.Machine
end

section
/-! PROOF. What an idle hub does: settlements and decisions that are due, else one millisecond mark (R42, R63, R76, R96,
R98, R100, R116, R122; log 1, log 15, log 27). -/

namespace Sys2Proof.Machine

set_option Elab.async false

open State

/-! ### Events join the queue in a free order (log 15) -/

theorem insertAt_perm (x : Instr) (n : Nat) (l : List Instr) : (insertAt x n l).Perm (x :: l) := by
  induction n, l using insertAt.induct with
  | case1 l => exact .refl _
  | case2 n => exact .refl _
  | case3 n y l ih => exact (ih.cons y).trans (.swap x y l)

theorem freeOrder_perm (l : List Instr) : ∀ k, (freeOrder k l).Perm l := by
  induction l with
  | nil => intro k; exact .refl _
  | cons x l ih => intro k; exact (insertAt_perm ..).trans ((ih _).cons x)

namespace State

variable {s : State} {c : Instr} {p : Port} {g : Seg}

theorem enqueue_keeps (s : State) (l : List Instr) : Keeps s (s.enqueue l) [.pending, .freeCount] :=
  ⟨fun x hx => by cases x <;> first | rfl | simp at hx⟩

theorem enqueue_pending_perm (h : s.pending = []) (l : List Instr) : (s.enqueue l).pending.Perm l := by
  rw [enqueue, h]
  exact freeOrder_perm ..

theorem allSegs_nodup : allSegs.Nodup := by decide

theorem mem_allSegs (g : Seg) : g ∈ allSegs := by
  revert g
  decide

theorem mem_allPolls (n : PollIdx) : n ∈ allPolls := by
  revert n
  decide

/-- Lists of events, one for each of several places, thinned out. -/
theorem flatMap_sublist {α β : Type} {f h : α → List β} (hf : ∀ a, (f a).Sublist (h a)) (l : List α) :
    (l.flatMap f).Sublist (l.flatMap h) := by
  induction l with
  | nil => exact .refl _
  | cons a l ih => exact (hf a).append ih

theorem ite_singleton_sublist (b : Prop) [Decidable b] (x : Instr) : (if b then [x] else []).Sublist [x] := by
  split
  · exact .refl _
  · exact List.nil_sublist _

/-! ### Events that are due without a mark (R42, R76) -/

/-- Every settlement and every decision there can be, each once. -/
def settlementsAndDecisions : List Instr :=
  (allPorts.flatMap fun p => allSegs.flatMap fun g => [.holdSettlement p g] ++ [.releaseSettlement p g]) ++
    allSegs.flatMap fun g => [.arbiterDecision g]

theorem internalEvents_nodup (s : State) : s.internalEvents.Nodup := by
  have hall : settlementsAndDecisions.Nodup := by decide
  refine hall.sublist (List.Sublist.append ?_ ?_)
  · exact flatMap_sublist (fun p => flatMap_sublist (fun g =>
      (ite_singleton_sublist ..).append (ite_singleton_sublist ..)) _) _
  · exact flatMap_sublist (fun g => ite_singleton_sublist ..) _

theorem settleable_isSome (k : Kind) :
    (s.settleable p g k).isSome = true ↔ ∃ r, (s.port p).readyHead g = some r ∧ r.kind = k := by
  simp only [Option.isSome_iff_exists, settleable_iff]

theorem mem_settlementsDue : c ∈ s.settlementsDue p g ↔
    DueNow s c ∧ (c = .holdSettlement p g ∨ c = .releaseSettlement p g) := by
  have hhold := settleable_isSome (s := s) (p := p) (g := g) .hold
  have hrelease := settleable_isSome (s := s) (p := p) (g := g) .release
  simp only [settlementsDue, List.mem_append, List.mem_ite_nil_right, List.mem_singleton, hhold, hrelease]
  constructor
  · rintro (⟨h, rfl⟩ | ⟨h, rfl⟩)
    · exact ⟨h, .inl rfl⟩
    · exact ⟨h, .inr rfl⟩
  · rintro ⟨h, rfl | rfl⟩
    · exact .inl ⟨h, rfl⟩
    · exact .inr ⟨h, rfl⟩

theorem mem_decisionDue : c ∈ s.decisionDue g ↔ DueNow s c ∧ c = .arbiterDecision g := by
  have hdue : (s.mayDecide g && (s.winner g).isSome) = true ↔ DueNow s (.arbiterDecision g) := by
    simp [mayDecide, DueNow, Option.isSome_iff_ne_none, and_assoc]
  simp only [decisionDue, List.mem_ite_nil_right, List.mem_singleton, hdue]
  constructor
  · rintro ⟨h, rfl⟩
    exact ⟨h, rfl⟩
  · rintro ⟨h, rfl⟩
    exact ⟨h, rfl⟩

theorem mem_internalEvents : c ∈ s.internalEvents ↔ DueNow s c := by
  simp only [internalEvents, List.mem_append, List.mem_flatMap, mem_settlementsDue, mem_decisionDue, mem_allPorts,
    mem_allSegs, true_and]
  constructor
  · rintro (⟨p, g, h, -⟩ | ⟨g, h, -⟩) <;> exact h
  · intro h
    cases c with
    | holdSettlement p g => exact .inl ⟨p, g, h, .inl rfl⟩
    | releaseSettlement p g => exact .inl ⟨p, g, h, .inr rfl⟩
    | arbiterDecision g => exact .inr ⟨g, h, rfl⟩
    | _ => exact h.elim

/-! ### A millisecond mark -/

theorem markEngine_eq_afterMark (e : Engine) : markEngine e = afterMark e := by
  unfold markEngine afterMark
  cases h : e.state <;> simp [← h]

theorem countMark_engine (s : State) (g : Seg) : s.countMark.engine g = afterMark (s.engine g) :=
  (mapEngines_engine s (fun _ => markEngine) g).trans (markEngine_eq_afterMark _)

theorem countMark_keeps (s : State) : Keeps s s.countMark [.engines, .tenth] :=
  ⟨fun x hx => by cases x <;> first | rfl | simp at hx⟩

/-- Every event an engine's marks can bring, each once. -/
def engineMarks (g : Seg) : List Instr :=
  [.timeout g [], .freeWindowComplete g, .limitWindowEnd g, .recoverySclTimeout g]

theorem map_withoutAcks_engineEvents (s : State) (g : Seg) : (s.engineEvents g).map withoutAcks =
    match (s.engine g).state with
    | .active t => if t.limit ≤ t.marks then [.timeout g []] else []
    | .checking free limit =>
      (if 2 ≤ free then [.freeWindowComplete g] else []) ++ (if 50 ≤ limit then [.limitWindowEnd g] else [])
    | .recovering _ marks _ => if 10 ≤ marks then [.recoverySclTimeout g] else []
    | .idle | .faulted | .disabled => [] := by
  unfold engineEvents
  cases (s.engine g).state with
  | active t => by_cases h : t.limit ≤ t.marks <;> simp [h, withoutAcks]
  | checking free limit => by_cases h : 2 ≤ free <;> by_cases k : 50 ≤ limit <;> simp [h, k, withoutAcks]
  | recovering step marks h => by_cases h : 10 ≤ marks <;> simp [h, withoutAcks]
  | idle | faulted | disabled => rfl

/-- What a mark brings an engine is read from its state alone. -/
theorem mem_map_engineEvents : c ∈ (s.engineEvents g).map withoutAcks ↔ MarkBrings s c ∧ c ∈ engineMarks g := by
  have hpick : MarkBrings s c ∧ c ∈ engineMarks g ↔ ∃ x ∈ engineMarks g, MarkBrings s x ∧ c = x :=
    ⟨fun ⟨h, hc⟩ => ⟨c, hc, h, rfl⟩, fun ⟨_, hx, h, e⟩ => e ▸ ⟨h, hx⟩⟩
  rw [map_withoutAcks_engineEvents, hpick]
  simp only [engineMarks, List.exists_mem_cons_iff, List.not_mem_nil, false_and, exists_false, or_false]
  cases hstate : (s.engine g).state with
  | active t => simp [MarkBrings, hstate]
  | checking free limit => simp [MarkBrings, hstate]
  | recovering step marks h => simp [MarkBrings, hstate]
  | idle | faulted | disabled => simp [MarkBrings, hstate]

theorem mem_pollEvents : c ∈ s.pollEvents ↔ MarkBrings s c ∧ (c = .ageIncrease ∨ ∃ n, c = .pollCountdown n) := by
  simp only [pollEvents, List.mem_cons, List.mem_flatMap, mem_allPolls, true_and, List.mem_ite_nil_right,
    List.not_mem_nil, or_false]
  constructor
  · rintro (rfl | ⟨n, h, rfl⟩)
    · exact ⟨trivial, .inl rfl⟩
    · exact ⟨h, .inr ⟨n, rfl⟩⟩
  · rintro ⟨h, rfl | ⟨n, rfl⟩⟩
    · exact .inl rfl
    · exact .inr ⟨n, h, rfl⟩

theorem mem_holdEvents : c ∈ s.holdEvents ↔ MarkBrings s c ∧ ∃ i, c = .holdDecrease i := by
  simp only [holdEvents, List.mem_ite_nil_right, List.mem_flatMap, mem_allHolds, true_and, List.mem_singleton]
  constructor
  · rintro ⟨htenth, i, hused, rfl⟩
    exact ⟨⟨htenth, by simpa [Option.isSome_iff_ne_none] using hused⟩, i, rfl⟩
  · rintro ⟨h, i, rfl⟩
    obtain ⟨htenth, hused⟩ := h
    exact ⟨htenth, i, by simpa [Option.isSome_iff_ne_none] using hused, rfl⟩

/-- Only a TIMEOUT carries acknowledge bits. -/
theorem map_withoutAcks_of_ne_timeout {l : List Instr} (h : ∀ c ∈ l, withoutAcks c = c) : l.map withoutAcks = l :=
  (List.map_congr_left h).trans (List.map_id l)

theorem map_withoutAcks_markEvents (s : State) : s.markEvents.map withoutAcks =
    s.pollEvents ++ s.holdEvents ++ allSegs.flatMap fun g => (s.engineEvents g).map withoutAcks := by
  have hpolls : s.pollEvents.map withoutAcks = s.pollEvents := map_withoutAcks_of_ne_timeout fun c hc => by
    obtain ⟨-, rfl | ⟨n, rfl⟩⟩ := mem_pollEvents.mp hc <;> rfl
  have hholds : s.holdEvents.map withoutAcks = s.holdEvents := map_withoutAcks_of_ne_timeout fun c hc => by
    obtain ⟨-, i, rfl⟩ := mem_holdEvents.mp hc
    rfl
  rw [markEvents, List.map_append, List.map_append, hpolls, hholds, List.map_flatMap]

theorem mem_map_markEvents : c ∈ s.markEvents.map withoutAcks ↔ MarkBrings s c := by
  rw [map_withoutAcks_markEvents]
  simp only [List.mem_append, List.mem_flatMap, mem_allSegs, true_and, mem_pollEvents, mem_holdEvents,
    mem_map_engineEvents]
  constructor
  · rintro ((⟨h, -⟩ | ⟨h, -⟩) | ⟨g, h, -⟩) <;> exact h
  · intro h
    cases c with
    | ageIncrease => exact .inl (.inl ⟨h, .inl rfl⟩)
    | pollCountdown n => exact .inl (.inl ⟨h, .inr ⟨n, rfl⟩⟩)
    | holdDecrease i => exact .inl (.inr ⟨h, i, rfl⟩)
    | timeout g acks =>
      obtain ⟨rfl, -⟩ := id h
      exact .inr ⟨g, h, by simp [engineMarks]⟩
    | freeWindowComplete g | limitWindowEnd g | recoverySclTimeout g => exact .inr ⟨g, h, by simp [engineMarks]⟩
    | _ => exact h.elim

/-- Every event a mark can bring, each once. -/
def marks : List Instr :=
  (.ageIncrease :: allPolls.flatMap fun n => [.pollCountdown n]) ++ (allHolds.flatMap fun i => [.holdDecrease i]) ++
    allSegs.flatMap engineMarks

theorem engineEvents_sublist (s : State) (g : Seg) : ((s.engineEvents g).map withoutAcks).Sublist (engineMarks g) := by
  have hcheck : [.freeWindowComplete g, .limitWindowEnd g].Sublist (engineMarks g) :=
    .cons _ (.cons_cons _ (.cons_cons _ (List.nil_sublist _)))
  rw [map_withoutAcks_engineEvents]
  split
  · exact (ite_singleton_sublist ..).trans (List.singleton_sublist.mpr (by simp [engineMarks]))
  · exact ((ite_singleton_sublist ..).append (ite_singleton_sublist ..)).trans hcheck
  · exact (ite_singleton_sublist ..).trans (List.singleton_sublist.mpr (by simp [engineMarks]))
  all_goals exact List.nil_sublist _

theorem markEvents_nodup (s : State) : (s.markEvents.map withoutAcks).Nodup := by
  have hall : marks.Nodup := by decide
  rw [map_withoutAcks_markEvents]
  refine hall.sublist (List.Sublist.append (List.Sublist.append (List.Sublist.cons_cons _ ?_) ?_) ?_)
  · exact flatMap_sublist (fun n => ite_singleton_sublist ..) _
  · unfold holdEvents
    split
    · exact flatMap_sublist (fun i => ite_singleton_sublist ..) _
    · exact List.nil_sublist _
  · exact flatMap_sublist s.engineEvents_sublist _

/-- The operands of every event of a mark can be carried on the hardware. -/
theorem markEvents_wf (h : c ∈ s.markEvents) : c.wf = true := by
  simp only [markEvents, List.mem_append, List.mem_flatMap, mem_allSegs, true_and, mem_pollEvents, mem_holdEvents] at h
  obtain (⟨-, rfl | ⟨n, rfl⟩⟩ | ⟨-, i, rfl⟩) | ⟨g, hc⟩ := h
  · rfl
  · rfl
  · rfl
  · unfold engineEvents at hc
    split at hc
    · obtain ⟨-, rfl⟩ := by simpa only [List.mem_ite_nil_right, List.mem_singleton] using hc
      simp [Instr.wf, acksFit]
    · simp only [List.mem_append, List.mem_ite_nil_right, List.mem_singleton] at hc
      obtain ⟨-, rfl⟩ | ⟨-, rfl⟩ := hc <;> rfl
    · obtain ⟨-, rfl⟩ := by simpa only [List.mem_ite_nil_right, List.mem_singleton] using hc
      rfl
    all_goals cases hc

/-! ### The idle step -/

theorem step_idle (h : s.pending = []) : step s = .next s.idle := by
  unfold step
  rw [h]

theorem idle_held (h : s.held = true) : s.idle = s := if_pos h

theorem idle_due (h : s.held = false) (hdue : ∃ c, DueNow s c) : s.idle = s.enqueue s.internalEvents := by
  obtain ⟨c, hc⟩ := hdue
  have hsome : s.internalEvents ≠ [] := List.ne_nil_of_mem (mem_internalEvents.mpr hc)
  simp [idle, h, hsome]

theorem idle_mark (h : s.held = false) (hnone : ∀ c, ¬DueNow s c) :
    s.idle = s.countMark.enqueue s.countMark.markEvents := by
  have hempty : s.internalEvents = [] :=
    List.eq_nil_iff_forall_not_mem.mpr fun c hc => hnone c (mem_internalEvents.mp hc)
  simp [idle, h, hempty]

end State

/-- Settles O2: what joins the queue is a permutation of the events due, or of those the counted mark brings. -/
theorem idleStepFillsTheQueue : Obligations.IdleStepFillsTheQueue := by
  intro s hpending
  refine ⟨fun hheld => ?_, fun hheld hdue => ?_, fun hheld hnone => ?_⟩
  · rw [step_idle hpending, idle_held hheld]
  · have hperm := enqueue_pending_perm hpending s.internalEvents
    exact ⟨_, by rw [step_idle hpending, idle_due hheld hdue], enqueue_keeps ..,
      hperm.nodup_iff.mpr s.internalEvents_nodup,
      fun c => hperm.mem_iff.trans mem_internalEvents⟩
  · have hperm := enqueue_pending_perm (s := s.countMark) hpending s.countMark.markEvents
    have hbrings (c : Instr) :
        MarkBrings (s.countMark.enqueue s.countMark.markEvents) c ↔ MarkBrings s.countMark c := by cases c <;> rfl
    refine ⟨_, by rw [step_idle hpending, idle_mark hheld hnone],
      (countMark_keeps s).mono.trans (enqueue_keeps ..).mono, rfl, countMark_engine s, ?_, fun c => ?_,
      fun c hc => markEvents_wf (hperm.mem_iff.mp hc)⟩
    · exact (hperm.map withoutAcks).nodup_iff.mpr (markEvents_nodup _)
    · rw [(hperm.map withoutAcks).mem_iff, mem_map_markEvents, hbrings]

end Sys2Proof.Machine
end

section
/-! PROOF. What an operation may do to the open requests of a port without disturbing the lanes (R38). -/

namespace Sys2Proof.Machine

set_option Elab.async false

open State PortState

/-- Open requests have left a lane store, none of them IN_FLIGHT; the others stand as they stood. -/
structure Thinned (before after : List Request) : Prop where
  sublist : after.Sublist before
  inFlight : ∀ r ∈ before, r.state = .inFlight → r ∈ after

namespace Thinned

variable {a b c : List Request}

theorem refl (a : List Request) : Thinned a a := ⟨.refl _, fun _ hr _ => hr⟩

theorem of_eq (h : b = a) : Thinned a b := h ▸ .refl a

theorem trans (h : Thinned a b) (k : Thinned b c) : Thinned a c :=
  ⟨k.sublist.trans h.sublist, fun r hr hs => k.inFlight r (h.inFlight r hr hs) hs⟩

theorem mem_inFlight_iff (h : Thinned a b) {r : Request} (hs : r.state = .inFlight) : r ∈ b ↔ r ∈ a :=
  ⟨fun hr => h.sublist.subset hr, fun hr => h.inFlight r hr hs⟩

/-- A port has the same requests IN_FLIGHT on a segment. -/
theorem exists_inFlight_iff (h : Thinned a b) (g : Seg) :
    (∃ r ∈ b, r.key.seg = g ∧ r.state = .inFlight) ↔ ∃ r ∈ a, r.key.seg = g ∧ r.state = .inFlight := by
  constructor
  · rintro ⟨r, hr, hg, hs⟩
    exact ⟨r, h.sublist.subset hr, hg, hs⟩
  · rintro ⟨r, hr, hg, hs⟩
    exact ⟨r, h.inFlight r hr hs, hg, hs⟩

theorem filter {sel : Request → Bool} (h : ∀ r, r.state = .inFlight → sel r = true) (a : List Request) :
    Thinned a (a.filter sel) :=
  ⟨List.filter_sublist, fun r hr hs => List.mem_filter.mpr ⟨hr, h r hs⟩⟩

/-- The request with a tag that no IN_FLIGHT one has leaves the store. -/
theorem eraseP {tag : Byte} (h : ∀ r ∈ a, r.state = .inFlight → r.tag ≠ tag) :
    Thinned a (a.eraseP fun x => x.tag == tag) :=
  ⟨List.eraseP_sublist, fun r hr hs => (List.mem_eraseP_of_neg (by simpa using h r hr hs)).mpr hr⟩

/-- An open request that is not IN_FLIGHT completes (R8, R43). -/
theorem complete {ps : PortState} (h : PortBounds ps) {r : Request} (hr : r ∈ ps.reqs) (hs : r.state ≠ .inFlight)
    (e : Ending) : Thinned ps.reqs (ps.complete r e).reqs := by
  rw [complete_reqs]
  exact eraseP fun x hx hflight htag => hs (h.eq_of_tag hx hr htag ▸ hflight)

/-- HOLDs granted together were not IN_FLIGHT (R68). -/
theorem grantAll {ps : PortState} {served : List Waiter}
    (h : ∀ w ∈ served, ∀ r ∈ ps.reqs, r.tag = w.tag → r.state ≠ .inFlight) :
    Thinned ps.reqs (ps.grantAll served).reqs := by
  refine List.foldlRecOn (motive := fun ps' : PortState => Thinned ps.reqs ps'.reqs) ps.reqs _ (.refl _)
    fun ps' hps' r _ => ?_
  split
  · next w hw =>
    have htag : w.tag = r.tag := by simpa using List.find?_some hw
    rw [complete_reqs]
    exact hps'.trans (eraseP fun x hx hflight hxr =>
      h w (List.mem_of_find?_eq_some hw) x (hps'.sublist.subset hx) (hxr.trans htag.symm) hflight)
  · exact hps'

end Thinned

namespace PortState

variable {ps : PortState} {g h : Seg} {r : Request}

theorem mem_lane : r ∈ ps.lane g ↔ r ∈ ps.reqs ∧ r.key.seg = g := by
  simp [lane]

theorem lane_eq_nil : ps.lane g = [] ↔ ∀ r ∈ ps.reqs, r.key.seg ≠ g := by
  simp [lane, List.filter_eq_nil_iff]

/-- At most one open request of a lane is not QUEUED (R38). -/
theorem eq_of_not_queued (hlane : ∀ x ∈ (ps.lane g).tail, x.state = .queued) {a b : Request} (ha : a ∈ ps.lane g)
    (hb : b ∈ ps.lane g) (hqa : a.state ≠ .queued) (hqb : b.state ≠ .queued) : a = b := by
  cases hl : ps.lane g with
  | nil => simp [hl] at ha
  | cons x rest =>
    rw [hl] at ha hb hlane
    have hhead {y : Request} (hy : y ∈ x :: rest) (hq : y.state ≠ .queued) : y = x :=
      (List.mem_cons.mp hy).resolve_right fun hrest => hq (hlane y hrest)
    rw [hhead ha hqa, hhead hb hqb]

/-- Without the request that completes, the others stand (R8, R43). -/
theorem mem_complete_reqs (hb : PortBounds ps) (hr : r ∈ ps.reqs) (e : Ending) {x : Request} :
    x ∈ (ps.complete r e).reqs ↔ x ∈ ps.reqs ∧ x ≠ r := by
  obtain ⟨y, before, after, -, hy, hsplit, herase⟩ :=
    List.exists_of_eraseP (p := fun x => x.tag == r.tag) hr (by simp)
  obtain rfl : y = r := hb.eq_of_tag (by simp [hsplit]) hr (by simpa using hy)
  have hnodup : (before ++ y :: after).Nodup := hsplit ▸ hb.reqTags_nodup.of_map
  have hout : y ∉ before ++ after := (List.nodup_middle.mp hnodup).notMem
  rw [complete_reqs, herase, hsplit]
  constructor
  · intro hx
    exact ⟨List.perm_middle.symm.subset (List.mem_cons_of_mem _ hx), ne_of_mem_of_not_mem hx hout⟩
  · rintro ⟨hx, hne⟩
    exact (List.mem_cons.mp (List.perm_middle.subset hx)).resolve_left hne

/-- The request of the port with a tag changes its state where it stands (R8, R37). -/
theorem setReqState_reqs (hb : PortBounds ps) {before after : List Request} (hsplit : ps.reqs = before ++ r :: after)
    (st : ReqState) : (ps.setReqState r.tag st).reqs = before ++ { r with state := st } :: after := by
  have htags := hb.reqTags_nodup
  have hother {l : List Request} (hl : r.tag ∉ l.map (·.tag)) :
      (l.map fun x => if x.tag == r.tag then { x with state := st } else x) = l := by
    refine (List.map_congr_left fun x hx => ?_).trans (List.map_id l)
    have hne : x.tag ≠ r.tag := fun e => hl (e ▸ List.mem_map_of_mem hx)
    simp [hne]
  rw [hsplit, List.map_append, List.map_cons, List.nodup_middle, List.nodup_cons, List.mem_append, not_or] at htags
  obtain ⟨⟨hbefore, hafter⟩, -⟩ := htags
  simp only [PortState.setReqState, hsplit, List.map_append, List.map_cons, hother hbefore, hother hafter,
    beq_self_eq_true, if_true]

end PortState

end Sys2Proof.Machine
end

section
/-! PROOF. Operations that leave lanes, engines and offline segments in agreement (R38, R52, R67, R92, R102). -/

namespace Sys2Proof.Machine

set_option Elab.async false

namespace State

open PortState

variable {s t u : State}

/-- Engine `g` carries a transaction of port `p` (R88). -/
def Carries (s : State) (g : Seg) (p : Port) : Prop := ∃ x, (s.engine g).state = .active x ∧ x.carrier = .port p

/-- The three invariants of lanes and engines (R38, R52, R67, R88, R92, R102). -/
structure LanesTogether (s : State) : Prop where
  lanes : LanesSound s
  inFlight : InFlightSound s
  offline : OfflineSegmentsIdle s

/-- From `s` to `t` no request was opened, changed its state or left while IN_FLIGHT, no engine took up or left a port's
transaction, no segment went offline or came back, and an offline one gained neither a due poll nor a hold. -/
structure Calm (s t : State) : Prop where
  reqs : ∀ p, Thinned (s.port p).reqs (t.port p).reqs
  carries : ∀ g p, t.Carries g p ↔ s.Carries g p
  offline : ∀ g, t.offline g = s.offline g
  due : ∀ g, s.offline g = true → s.dueOf g = [] → t.dueOf g = []
  holds : ∀ i e, t.hold i = some e → s.offline e.key.seg = true → ∃ j x, s.hold j = some x ∧ x.key.seg = e.key.seg

/-! ### What the invariants need -/

theorem lane_sublist (h : (t.port p).reqs.Sublist (s.port p).reqs) (g : Seg) :
    ((t.port p).lane g).Sublist ((s.port p).lane g) := h.filter _

/-- Requests that leave their lanes leave them in order (R38). -/
theorem LanesSound.thinned (h : LanesSound s) (hreqs : ∀ p, (t.port p).reqs.Sublist (s.port p).reqs) :
    LanesSound t :=
  fun p g r hr => h p g r ((lane_sublist (hreqs p) g).tail.subset hr)

theorem OfflineSegmentsIdle.thinned (h : OfflineSegmentsIdle s)
    (hreqs : ∀ p, (t.port p).reqs.Sublist (s.port p).reqs) (hoffline : ∀ g, t.offline g = s.offline g)
    (hdue : ∀ g, s.offline g = true → s.dueOf g = [] → t.dueOf g = [])
    (hholds : ∀ i e, t.hold i = some e → s.offline e.key.seg = true →
      ∃ j x, s.hold j = some x ∧ x.key.seg = e.key.seg) : OfflineSegmentsIdle t := by
  intro g hg
  rw [hoffline] at hg
  obtain ⟨hlanes, hempty, hnone⟩ := h g hg
  refine ⟨fun p => List.sublist_nil.mp (hlanes p ▸ lane_sublist (hreqs p) g), hdue g hg hempty, fun i e he hkey => ?_⟩
  obtain ⟨j, x, hx, hsame⟩ := hholds i e he (hkey ▸ hg)
  exact hnone j x hx (hsame.trans hkey)

theorem LanesTogether.calm (h : LanesTogether s) (c : Calm s t) : LanesTogether t where
  lanes := h.lanes.thinned fun p => (c.reqs p).sublist
  inFlight := by
    obtain ⟨hcarried, hbus⟩ := h.inFlight
    exact ⟨fun p g => ((c.reqs p).exists_inFlight_iff g).trans ((hcarried p g).trans (c.carries g p).symm),
      fun p r hr => hbus p r ((c.reqs p).sublist.subset hr)⟩
  offline := h.offline.thinned (fun p => (c.reqs p).sublist) c.offline c.due c.holds

/-! ### Operations that leave them alone -/

namespace Calm

theorem refl (s : State) : Calm s s :=
  ⟨fun _ => .refl _, fun _ _ => .rfl, fun _ => rfl, fun _ _ h => h, fun i e h _ => ⟨i, e, h, rfl⟩⟩

theorem trans (h : Calm s t) (k : Calm t u) : Calm s u where
  reqs p := (h.reqs p).trans (k.reqs p)
  carries g p := (k.carries g p).trans (h.carries g p)
  offline g := (k.offline g).trans (h.offline g)
  due g hg hempty := k.due g (h.offline g ▸ hg) (h.due g hg hempty)
  holds i e he hoff := by
    obtain ⟨j, x, hx, hkey⟩ := k.holds i e he (h.offline _ ▸ hoff)
    obtain ⟨m, y, hy, hkey'⟩ := h.holds j x hx (hkey.symm ▸ hoff)
    exact ⟨m, y, hy, hkey'.trans hkey⟩

theorem foldl {α : Type} {f : State → α → State} (hf : ∀ s a, Calm s (f s a)) (l : List α) :
    ∀ s : State, Calm s (l.foldl f s) := by
  induction l with
  | nil => exact refl
  | cons a l ih => exact fun s => (hf s a).trans (ih _)

theorem carries_congr (h : ∀ g, t.engine g = s.engine g) (g : Seg) (p : Port) : t.Carries g p ↔ s.Carries g p := by
  rw [Carries, h, Carries]

theorem offline_congr (h : ∀ g, (t.engine g).state = (s.engine g).state) (g : Seg) : t.offline g = s.offline g := by
  rw [State.offline, h]
  rfl

variable {l : List Part}

/-- Requests that are not IN_FLIGHT leave their ports; engines, due lists and holds stand. -/
theorem of_ports (k : Keeps s t l) (hreqs : ∀ p, Thinned (s.port p).reqs (t.port p).reqs)
    (me : .engines ∉ l := by decide) (md : .due ∉ l := by decide) (mh : .holds ∉ l := by decide) : Calm s t where
  reqs := hreqs
  carries := carries_congr fun g => k.engine g me
  offline := offline_congr fun g => by rw [k.engine g me]
  due g _ h := (k.dueOf g md).trans h
  holds i e he _ := ⟨i, e, (k.hold i mh).symm.trans he, rfl⟩

/-- A change of other blocks. -/
theorem of_keeps (k : Keeps s t l) (mp : .ports ∉ l := by decide) (me : .engines ∉ l := by decide)
    (md : .due ∉ l := by decide) (mh : .holds ∉ l := by decide) : Calm s t :=
  of_ports k (fun p => .of_eq (congrArg _ (k.port p mp))) me md mh

/-- A change of a port beside its open requests. -/
theorem modifyPort {p : Port} {f : PortState → PortState} (h : Thinned (s.port p).reqs (f (s.port p)).reqs) :
    Calm s (s.modifyPort p f) := by
  refine of_ports (modifyPort_keeps ..) fun q => ?_
  rw [modifyPort_port]
  split
  · next e => exact e ▸ h
  · exact .refl _

theorem modifyPort_eq {p : Port} {f : PortState → PortState} (h : (f (s.port p)).reqs = (s.port p).reqs) :
    Calm s (s.modifyPort p f) := modifyPort (.of_eq h)

theorem mapPorts {f : Port → PortState → PortState} (h : ∀ p ps, (f p ps).reqs = ps.reqs) :
    Calm s (s.mapPorts f) :=
  of_ports (mapPorts_keeps ..) fun p => by rw [mapPorts_port, h]; exact .refl _

/-- Engines change beside what they carry and whether their segments are online. -/
theorem of_engines (k : Keeps s t l) (hcarries : ∀ g p, t.Carries g p ↔ s.Carries g p)
    (hoffline : ∀ g, t.offline g = s.offline g) (mp : .ports ∉ l := by decide) (md : .due ∉ l := by decide)
    (mh : .holds ∉ l := by decide) : Calm s t where
  reqs p := .of_eq (congrArg _ (k.port p mp))
  carries := hcarries
  offline := hoffline
  due g _ h := (k.dueOf g md).trans h
  holds i e he _ := ⟨i, e, (k.hold i mh).symm.trans he, rfl⟩

/-- An engine changes beside its state. -/
theorem setEngine {g : Seg} {x : Engine} (h : x.state = (s.engine g).state) : Calm s (s.setEngine g x) := by
  have hstate (k : Seg) : ((s.setEngine g x).engine k).state = (s.engine k).state := by
    rw [setEngine_engine]
    split
    · next e => exact e ▸ h
    · rfl
  exact of_engines (setEngine_keeps ..) (fun k p => by rw [Carries, hstate, Carries]) (offline_congr hstate)

/-- A due list changes whose segment is online. -/
theorem setDue {g : Seg} (h : s.offline g = false) (x : List PollIdx) : Calm s (s.setDue g x) where
  reqs _ := .refl _
  carries _ _ := .rfl
  offline _ := rfl
  due k hk hempty := by
    rw [setDue_dueOf, if_neg fun e => by simp [← e, h] at hk]
    exact hempty
  holds i e he _ := ⟨i, e, he, rfl⟩

theorem mapDue_filter (sel : PollIdx → Bool) : Calm s (s.mapDue (·.filter sel)) where
  reqs _ := .refl _
  carries _ _ := .rfl
  offline _ := rfl
  due k _ hempty := by rw [mapDue_dueOf, hempty]; rfl
  holds i e he _ := ⟨i, e, he, rfl⟩

/-- Holds change beside their keys, or end. -/
theorem of_holds (k : Keeps s t l)
    (hholds : ∀ i e, t.hold i = some e → s.offline e.key.seg = true → ∃ j x, s.hold j = some x ∧ x.key.seg = e.key.seg)
    (mp : .ports ∉ l := by decide) (me : .engines ∉ l := by decide) (md : .due ∉ l := by decide) : Calm s t where
  reqs p := .of_eq (congrArg _ (k.port p mp))
  carries := carries_congr fun g => k.engine g me
  offline := offline_congr fun g => by rw [k.engine g me]
  due g _ h := (k.dueOf g md).trans h
  holds := hholds

theorem setHold {i : HoldIdx} {x : Option HoldEntry}
    (h : ∀ e, x = some e → s.offline e.key.seg = true → ∃ j y, s.hold j = some y ∧ y.key.seg = e.key.seg) :
    Calm s (s.setHold i x) := by
  refine of_holds (setHold_keeps ..) fun k e he hoff => ?_
  rw [setHold_hold] at he
  split at he
  · exact h e he hoff
  · exact ⟨k, e, he, rfl⟩

theorem dropWaiters (p : Port) (sel : Byte → Bool) : Calm s (s.dropWaiters p sel) := by
  refine of_holds (dropWaiters_keeps ..) fun i e he _ => ?_
  rw [State.dropWaiters, mapHolds_hold] at he
  obtain ⟨x, hx, rfl⟩ := Option.map_eq_some_iff.mp he
  exact ⟨i, x, hx, rfl⟩

/-- An open request that is not IN_FLIGHT completes. -/
theorem completeReq (hb : RequestBounds s) {p : Port} {r : Request} (hr : r ∈ (s.port p).reqs)
    (hs : r.state ≠ .inFlight) (e : Ending) : Calm s (s.completeReq p r e) :=
  modifyPort (.complete (hb p) hr hs e)

end Calm

end State

end Sys2Proof.Machine
end

section
/-! PROOF. The commands that leave lanes and engines alone. -/

namespace Sys2Proof.Machine

set_option Elab.async false

open State PortState

namespace State

variable {s t : State} {p : Port}

namespace Calm

/-! ### Frames and events -/

theorem noFrame (s : State) (p : Port) : Calm s (s.noFrame p) := modifyPort_eq rfl

theorem takeFrame {k : Option FrameKind} {n : Nat} {act : State → Answer}
    (hact : Calm (s.noFrame p) (act (s.noFrame p)).state) : Calm s (Machine.takeFrame p k n act s) := by
  unfold Machine.takeFrame
  split
  · exact ((noFrame s p).trans hact).trans (modifyPort_eq rfl)
  · exact .refl s

theorem frameOf {k : FrameKind} {act : State → Answer} (hact : ∀ s, Calm s (act s).state) :
    Calm s (Machine.frameOf p k act s) := takeFrame (hact _)

theorem frameEnd {k : FrameKind} {act : Snapshot → State → State} (hact : ∀ x s, Calm s (act x s)) :
    Calm s (Machine.frameEnd p k act s) := by
  unfold Machine.frameEnd
  split
  · split
    · exact (noFrame s p).trans (hact _ _)
    · exact .refl s
  · exact .refl s

theorem hubEvent {act : State → State} (hact : ∀ s, Calm s (act s)) : Calm s (Machine.hubEvent act s) := by
  unfold Machine.hubEvent
  split
  · exact .refl s
  · exact hact s

theorem withClaim {k : FrameKind} {act : Answer} (hact : Calm s act.state) :
    Calm s (Machine.withClaim p k s act).state := by
  unfold Machine.withClaim
  split
  · exact hact
  · exact .refl s

theorem withIndex {n : Nat} {b : Byte} {k : FrameKind} {act : Fin n → Answer} (hact : ∀ i, Calm s (act i).state) :
    Calm s (Machine.withIndex n b k s act).state := by
  unfold Machine.withIndex
  split
  · exact hact _
  · exact .refl s

theorem claimedFrame {n : Nat} {b : Byte} {k : FrameKind} {act : State → Fin n → Answer}
    (hact : ∀ s i, Calm s (act s i).state) : Calm s (Machine.claimedFrame p k b act s) :=
  frameOf fun s => withClaim (withIndex (hact s))

theorem next {u : State} (c : Calm s u) (e : (.next u : Host.Outcome State Fault Refusal) = .next t) : Calm s t := by
  cases e
  exact c

/-! ### Polls (R116, R120, R123, R124, R125) -/

theorem completePoll (s : State) (n : PollIdx) (st : Status) (data : List Byte) :
    Calm s (s.completePoll n st data) := by
  unfold State.completePoll
  dsimp only
  split
  · exact of_keeps (setPoll_keeps ..)
  · refine trans ?_ (of_keeps (setPoll_keeps ..))
    split
    · refine mapPorts fun q ps => ?_
      split
      · exact addNotices_reqs ..
      · rfl
    · exact .refl s

/-- An entry joins the due list of a segment only while that is online (R116). -/
theorem becomeDue (s : State) (n : PollIdx) : Calm s (s.becomeDue n) := by
  unfold State.becomeDue
  dsimp only
  split
  · exact of_keeps (setPoll_keeps ..)
  · split
    · exact (of_keeps (setPoll_keeps ..)).trans (completePoll ..)
    · next hon => exact (of_keeps (setPoll_keeps ..)).trans (setDue (by exact Bool.eq_false_iff.mpr hon) _)

theorem countdown (s : State) (n : PollIdx) : Calm s (s.countdown n) := by
  unfold State.countdown
  dsimp only
  split
  · split
    · exact of_keeps (setPoll_keeps ..)
    · exact becomeDue s n
  · exact .refl s

theorem undue_setPoll (s : State) (n : PollIdx) (x : PollEntry) : Calm s ((s.undue n).setPoll n x) :=
  (mapDue_filter _).trans (of_keeps (setPoll_keeps ..))

theorem pollSet (s : State) (n : PollIdx) (f : PollFields) : Calm s (s.pollSet n f).state := by
  unfold State.pollSet
  split
  · exact .refl s
  · split
    · exact undue_setPoll ..
    · exact .refl s

theorem pollStart (s : State) (n : PollIdx) : Calm s (s.pollStart n).state := by
  unfold State.pollStart
  dsimp only
  split
  · dsimp only
    split
    · exact .refl s
    · exact of_keeps (setPoll_keeps ..)
  · exact .refl s

/-! ### Routes: a sweep passes over what is IN_FLIGHT (R27) -/

theorem sweep (s : State) (i : RouteIdx) : Calm s (s.sweep i) where
  reqs p := by
    rw [sweep_port, completeAll_reqs]
    exact .filter (fun r hr => by simp [swept, hr]) _
  carries := carries_congr fun g => (sweep_keeps s i).engine g
  offline := offline_congr fun g => by rw [(sweep_keeps s i).engine]
  due g _ hempty := by rw [sweep_dueOf, hempty]; rfl
  holds k e he _ := by
    rw [sweep_hold] at he
    obtain ⟨x, hx, rfl⟩ := Option.map_eq_some_iff.mp he
    exact ⟨k, x, hx, rfl⟩

theorem routeSet (s : State) (i : RouteIdx) (f : RouteFields) : Calm s (s.routeSet i f).state := by
  have hset (e : RouteEntry) : Calm s (s.setRoute i e) := of_keeps (setRoute_keeps ..)
  unfold State.routeSet
  split
  · exact .refl s
  · split
    · exact .refl s
    · split
      · exact (hset _).trans (sweep _ i)
      · exact hset _

theorem routeClear (s : State) (i : RouteIdx) : Calm s (s.routeClear i).state := by
  unfold State.routeClear
  split
  · exact (of_keeps (setRoute_keeps ..)).trans (sweep _ i)
  · exact .refl s

/-! ### Semaphores and segments -/

theorem segmentNotice (s : State) (g : Seg) : Calm s (s.segmentNotice g) := mapPorts fun _ _ => addNotices_reqs ..

theorem freeSem (s : State) (n : SemIdx) : Calm s (s.freeSem n) := by
  refine of_ports (freeSem_keeps s n) fun p => .of_eq ?_
  rw [freeSem_port]
  split
  · exact addNotices_reqs ..
  · rfl

theorem semGive (s : State) (p : Port) (i : SemIdx) : Calm s (s.semGive p i).1 := by
  unfold State.semGive
  split
  · exact freeSem s i
  · exact .refl s

theorem semBreak (s : State) (i : SemIdx) : Calm s (s.semBreak i).1 := by
  unfold State.semBreak
  split
  · dsimp only
    exact (freeSem s i).trans (modifyPort_eq (addNotices_reqs ..))
  · exact .refl s

theorem segmentSet (s : State) (g : Seg) (f : SegmentFields) : Calm s (s.segmentSet g f).state := by
  unfold State.segmentSet
  split
  · exact .refl s
  · exact (setEngine (by rfl)).trans (of_keeps (setArbiter_keeps ..))

/-! ### The removals at the normal ends (R133) -/

theorem fetchRemoval (p : Port) (x : Snapshot) (s : State) : Calm s (Machine.fetchRemoval p x s) := by
  unfold Machine.fetchRemoval
  split
  · refine modifyPort_eq ?_
    split <;> rfl
  · exact .refl s

theorem postedFaultRemoval (p : Port) (x : Snapshot) (s : State) : Calm s (Machine.postedFaultRemoval p x s) := by
  unfold Machine.postedFaultRemoval
  split
  · exact modifyPort_eq rfl
  · exact .refl s

theorem holdEndsRemoval (p : Port) (x : Snapshot) (s : State) : Calm s (Machine.holdEndsRemoval p x s) := by
  unfold Machine.holdEndsRemoval
  split
  · exact modifyPort_eq rfl
  · exact .refl s

theorem noticesRemoval (p : Port) (x : Snapshot) (s : State) : Calm s (Machine.noticesRemoval p x s) := by
  unfold Machine.noticesRemoval
  split
  · exact modifyPort_eq rfl
  · exact .refl s

/-! ### The idle hub (log 1) -/

/-- A mark counted by an engine changes neither what it carries nor whether its segment is online. -/
theorem countMark (s : State) : Calm s s.countMark := by
  refine of_engines (countMark_keeps s) (fun g p => ?_) fun g => ?_
  · rw [Carries, Carries, countMark_engine]
    cases hstate : (s.engine g).state <;> simp [afterMark, hstate]
  · rw [State.offline, State.offline, countMark_engine]
    cases hstate : (s.engine g).state <;> simp [afterMark, hstate]

theorem idle (s : State) : Calm s s.idle := by
  unfold State.idle
  split
  · exact .refl s
  · split
    · exact (countMark s).trans (of_keeps (enqueue_keeps ..))
    · exact of_keeps (enqueue_keeps ..)

end Calm

/-! ### The commands -/

/-- A command that can open a request, start or end one on a hold or on the bus, cut, cancel or reset, or move an
engine to another state. Every other one leaves lanes and engines alone. -/
def stirs : Instr → Bool
  | .submit _ _ | .cancel _ _ | .segmentDisable _ _ | .segmentRestore _ _ | .portResetNormalEnd _
  | .hubResetNormalEnd _ | .prstxnFall _ | .resetnRise _ _ _ | .arbiterDecision _ | .holdSettlement _ _
  | .releaseSettlement _ _ | .holdDecrease _ | .holdExpiry _ | .transactionEnd _ _ _ | .lineConflict _ _ | .timeout _ _
  | .cutEnd _ | .lineLowInIdle _ | .freeWindowComplete _ | .freeWindowRestart _ | .limitWindowEnd _
  | .recoverySclHigh _ _ | .recoverySclTimeout _ | .recoveryPulseEnd _ _ | .recoveryStopEnd _ => true
  | _ => false

theorem exec_calm {c : Instr} (hc : stirs c = false) (e : exec c s = .next t) : Calm s t := by
  cases c with
  | laneInspect | hubInfo | portReset | holdEnds | notices => exact (Calm.frameOf .refl).next e
  | fetch | postedFault =>
    refine (Calm.frameOf fun s => ?_).next e
    split <;> exact .refl s
  | causes p clear =>
    refine (Calm.frameOf fun s => ?_).next e
    dsimp only
    split
    · exact .modifyPort_eq rfl
    · exact .refl s
  | causeMask p mask =>
    refine (Calm.frameOf fun s => ?_).next e
    dsimp only
    exact .modifyPort_eq rfl
  | fetchNormalEnd p => exact (Calm.frameEnd (.fetchRemoval p)).next e
  | postedFaultNormalEnd p => exact (Calm.frameEnd (.postedFaultRemoval p)).next e
  | holdEndsNormalEnd p => exact (Calm.frameEnd (.holdEndsRemoval p)).next e
  | noticesNormalEnd p => exact (Calm.frameEnd (.noticesRemoval p)).next e
  | semTake p n =>
    refine (Calm.frameOf fun s => ?_).next e
    split
    · exact .refl s
    · exact .of_keeps (semTake_keeps ..)
  | semGive p n =>
    refine (Calm.frameOf fun s => ?_).next e
    split
    · exact .refl s
    · exact .semGive s p _
  | semBreak p n =>
    refine (Calm.frameOf fun s => ?_).next e
    split
    · exact .refl s
    · split
      · exact .refl s
      · exact .semBreak s _
  | routeSet p f => exact (Calm.claimedFrame fun s i => .routeSet s i f).next e
  | routeClear p index => exact (Calm.claimedFrame .routeClear).next e
  | routeGet | pollGet | pollRead => exact (Calm.frameOf fun s => .withIndex fun _ => .refl s).next e
  | pollSet p f => exact (Calm.claimedFrame fun s n => .pollSet s n f).next e
  | pollStart p index => exact (Calm.claimedFrame .pollStart).next e
  | pollStop p index => exact (Calm.claimedFrame fun s n => .undue_setPoll s n _).next e
  | segmentSet p f => exact (Calm.claimedFrame fun s g => .segmentSet s g f).next e
  | segmentGet p b => exact (Calm.frameOf fun _ => .withIndex fun _ => .of_keeps (look_keeps ..)).next e
  | statsClear p b => exact (Calm.claimedFrame fun _ _ => .setEngine (by rfl)).next e
  | hubReset p =>
    refine (Calm.frameOf fun s => ?_).next e
    split
    · exact .refl s
    · exact .withClaim (.refl s)
  | badFrame p kind => exact (Calm.takeFrame (.modifyPort_eq rfl)).next e
  | framingError p | frameEndsEarly p =>
    refine Calm.next ?_ e
    split
    · exact .modifyPort_eq rfl
    · exact .refl s
  | prstxnRise p =>
    refine Calm.next ?_ e
    split
    · exact .modifyPort_eq rfl
    · exact .refl s
  | resetnFall =>
    have hframes : Calm s (s.mapPorts fun _ ps => { ps with frame := none }) := .mapPorts fun _ _ => rfl
    exact (hframes.trans (.of_keeps (l := [.held]) ⟨fun x hx => by cases x <;> first | rfl | simp at hx⟩)).next e
  | pollCountdown n => exact (Calm.hubEvent (.countdown · n)).next e
  | pollDue n =>
    refine (Calm.hubEvent fun s => ?_).next e
    split
    · exact .becomeDue s n
    · exact .refl s
  | ageIncrease => exact (Calm.hubEvent fun _ => .of_keeps (mapPolls_keeps ..)).next e
  | _ => cases hc

end State

end Sys2Proof.Machine
end

section
/-! PROOF. Lanes, engines and offline segments stay in agreement when a request joins its lane or its head moves on, and
when a hold is handed over (R15, R38, R57, R92). -/

namespace Sys2Proof.Machine

set_option Elab.async false

open State PortState

/-! ### The head of a lane changes its state -/

namespace PortState

variable {ps : PortState} {g h : Seg} {r x : Request}

/-- A ready head heads its lane, and its change of state leaves the rest of the lane and the other lanes (R8, R38). -/
theorem lane_setReqState (hb : PortBounds ps) (hr : ps.readyHead g = some r) (st : ReqState) :
    (∃ rest, ps.lane g = r :: rest ∧ (ps.setReqState r.tag st).lane g = { r with state := st } :: rest) ∧
      ∀ h, h ≠ g → (ps.setReqState r.tag st).lane h = ps.lane h := by
  obtain ⟨before, after, hsplit, hbefore, hg, -, -⟩ := readyHead_iff.mp hr
  have hreqs := setReqState_reqs hb hsplit st
  have hnone : before.filter (fun x => x.key.seg == g) = [] :=
    List.filter_eq_nil_iff.mpr fun x hx => by simpa using hbefore x hx
  refine ⟨⟨after.filter fun x => x.key.seg == g, ?_, ?_⟩, fun h hne => ?_⟩
  · simp [lane, hsplit, hnone, hg]
  · simp [lane, hreqs, hnone, hg]
  · simp [lane, hreqs, hsplit, hg, hne.symm]

theorem mem_setReqState (hb : PortBounds ps) (hr : ps.readyHead g = some r) (st : ReqState) :
    x ∈ (ps.setReqState r.tag st).reqs ↔ (x ∈ ps.reqs ∧ x ≠ r) ∨ x = { r with state := st } := by
  obtain ⟨before, after, hsplit, -⟩ := readyHead_iff.mp hr
  have hnodup : (before ++ r :: after).Nodup := hsplit ▸ hb.reqTags_nodup.of_map
  have hout : r ∉ before ++ after := (List.nodup_middle.mp hnodup).notMem
  rw [setReqState_reqs hb hsplit, hsplit]
  simp only [List.mem_append, List.mem_cons] at hout ⊢
  grind

/-- A request that joins the open ones is the last of its lane (R36). -/
theorem lane_append (ps : PortState) (g : Seg) (r : Request) : { ps with reqs := ps.reqs ++ [r] }.lane g =
    ps.lane g ++ if r.key.seg = g then [r] else [] := by
  by_cases hg : r.key.seg = g <;> simp [lane, hg]

end PortState

theorem mem_tail_append {α : Type} {l m : List α} {x : α} (h : x ∈ (l ++ m).tail) : x ∈ l.tail ∨ x ∈ m := by
  cases l with
  | nil => exact .inr (List.mem_of_mem_tail h)
  | cons y l => exact List.mem_append.mp h

namespace State

variable {s t : State} {p q : Port} {g h : Seg} {r : Request}

/-- A port has a request IN_FLIGHT on a segment (R37). -/
def HasInFlight (ps : PortState) (g : Seg) : Prop := ∃ r ∈ ps.reqs, r.key.seg = g ∧ r.state = .inFlight

/-! ### A request joins its lane -/

theorem LanesSound.addOpen (hs : LanesSound s) (hqueued : r.state = .queued) : LanesSound (s.addOpen p r) := by
  intro q g x hx
  rw [State.addOpen, modifyPort_port] at hx
  split at hx
  · rw [lane_append] at hx
    rcases mem_tail_append hx with hx | hx
    · exact hs q g x hx
    · obtain ⟨-, rfl⟩ := by simpa only [List.mem_ite_nil_right, List.mem_singleton] using hx
      exact hqueued
  · exact hs q g x hx

/-- A request joins the lane of an online segment at its tail (R15, R35). -/
theorem LanesTogether.addOpen (ht : LanesTogether s) (hqueued : r.state = .queued)
    (honline : s.offline r.key.seg = false) : LanesTogether (s.addOpen p r) := by
  obtain ⟨hcarried, hbus⟩ := ht.inFlight
  have hmem {q : Port} {x : Request} :
      x ∈ ((s.addOpen p r).port q).reqs ↔ x ∈ (s.port q).reqs ∨ p = q ∧ x = r := by
    rw [State.addOpen, modifyPort_port]
    split <;> simp [*]
  have hold {q : Port} {x : Request} (hx : x ∈ ((s.addOpen p r).port q).reqs) (hflight : x.state = .inFlight) :
      x ∈ (s.port q).reqs :=
    (hmem.mp hx).resolve_right fun ⟨_, e⟩ => by simp [e, hqueued] at hflight
  refine ⟨ht.lanes.addOpen hqueued, ⟨fun q g => ?_, fun q x hx hs => hbus q x (hold hx hs) hs⟩, fun g hg => ?_⟩
  · refine Iff.trans ⟨?_, ?_⟩ (hcarried q g)
    · rintro ⟨x, hx, hxg, hs⟩
      exact ⟨x, hold hx hs, hxg, hs⟩
    · rintro ⟨x, hx, hxg, hs⟩
      exact ⟨x, hmem.mpr (.inl hx), hxg, hs⟩
  · obtain ⟨hlanes, hdue, hholds⟩ := ht.offline g hg
    refine ⟨fun q => lane_eq_nil.mpr fun x hx => ?_, hdue, hholds⟩
    rcases hmem.mp hx with hx | ⟨-, rfl⟩
    · exact lane_eq_nil.mp (hlanes q) x hx
    · exact fun e => Bool.false_ne_true (honline.symm.trans (e ▸ hg))

/-! ### The head of a lane moves on -/

theorem LanesSound.setHead (hs : LanesSound s) (hb : RequestBounds s) (hr : (s.port p).readyHead g = some r)
    (st : ReqState) : LanesSound (s.modifyPort p (·.setReqState r.tag st)) := by
  intro q h x hx
  rw [modifyPort_port] at hx
  split at hx
  · next e =>
    subst e
    obtain ⟨⟨rest, hlane, hset⟩, hother⟩ := lane_setReqState (hb p) hr st
    by_cases hh : h = g
    · subst hh
      rw [hset] at hx
      exact hs p h x (hlane ▸ hx)
    · rw [hother h hh] at hx
      exact hs p h x hx
  · exact hs q h x hx

/-- On every segment but the head's the port has the same requests IN_FLIGHT; on its own segment the head alone counts,
for it was QUEUED (R38). -/
theorem exists_inFlight_setHead (hb : RequestBounds s) (hr : (s.port p).readyHead g = some r) (st : ReqState) (q : Port)
    (h : Seg) : HasInFlight ((s.modifyPort p (·.setReqState r.tag st)).port q) h ↔
      HasInFlight (s.port q) h ∨ p = q ∧ h = g ∧ st = .inFlight := by
  obtain ⟨-, -, -, -, hg, hqueued, -⟩ := readyHead_iff.mp hr
  rw [modifyPort_port]
  split
  · next e =>
    subst e
    simp only [HasInFlight, mem_setReqState (hb p) hr, true_and]
    constructor
    · rintro ⟨x, ⟨hx, -⟩ | rfl, hxh, hs⟩
      · exact .inl ⟨x, hx, hxh, hs⟩
      · exact .inr ⟨hxh.symm.trans hg, hs⟩
    · rintro (⟨x, hx, hxh, hs⟩ | ⟨rfl, rfl⟩)
      · exact ⟨x, .inl ⟨hx, fun e => by simp [e, hqueued] at hs⟩, hxh, hs⟩
      · exact ⟨_, .inr rfl, hg, rfl⟩
  · next e => simp [e]

theorem lane_setHead_other (hb : RequestBounds s) (hr : (s.port p).readyHead g = some r) (st : ReqState) (hne : h ≠ g)
    (q : Port) : ((s.modifyPort p (·.setReqState r.tag st)).port q).lane h = (s.port q).lane h := by
  rw [modifyPort_port]
  split
  · next e =>
    obtain ⟨-, hother⟩ := lane_setReqState (hb p) hr st
    exact e ▸ hother h hne
  · rfl

/-- Only a bus request becomes IN_FLIGHT (R37). -/
theorem usesBus_setHead (hb : RequestBounds s) (hr : (s.port p).readyHead g = some r) {st : ReqState}
    (hbus : st = .inFlight → r.kind.usesBus = true)
    (hs : ∀ q, ∀ x ∈ (s.port q).reqs, x.state = .inFlight → x.kind.usesBus = true) :
    ∀ q, ∀ x ∈ ((s.modifyPort p (·.setReqState r.tag st)).port q).reqs,
      x.state = .inFlight → x.kind.usesBus = true := by
  intro q x hx hflight
  rw [modifyPort_port] at hx
  split at hx
  · next e =>
    subst e
    rcases (mem_setReqState (hb p) hr st).mp hx with ⟨hx, -⟩ | rfl
    · exact hs p x hx hflight
    · exact hbus hflight
  · exact hs q x hx hflight

/-- The head of a lane joins the waiters of its key (R55). -/
theorem LanesTogether.setHead (ht : LanesTogether s) (hb : RequestBounds s) (hr : (s.port p).readyHead g = some r)
    {st : ReqState} (hst : st ≠ .inFlight) : LanesTogether (s.modifyPort p (·.setReqState r.tag st)) := by
  obtain ⟨hcarried, hbus⟩ := ht.inFlight
  refine ⟨ht.lanes.setHead hb hr st, ⟨fun q h => ?_, usesBus_setHead hb hr (absurd · hst) hbus⟩, fun h hoff => ?_⟩
  · refine (exists_inFlight_setHead hb hr st q h).trans (Iff.trans ?_ (hcarried q h))
    simp [hst, HasInFlight]
  · obtain ⟨hlanes, hdue, hholds⟩ := ht.offline h hoff
    have hne : h ≠ g := by
      rintro rfl
      obtain ⟨⟨rest, hlane, -⟩, -⟩ := lane_setReqState (hb p) hr st
      simp [hlanes p] at hlane
    exact ⟨fun q => (lane_setHead_other hb hr st hne q).trans (hlanes q), hdue, hholds⟩

/-- The head of a lane becomes IN_FLIGHT, and the IDLE engine of the segment carries it (R78, R92). -/
theorem LanesTogether.start (ht : LanesTogether s) (hb : RequestBounds s) (hr : (s.port p).readyHead g = some r)
    (hbus : r.kind.usesBus = true) (hidle : (s.engine g).state = .idle) {x : Engine} {y : Transaction}
    (hx : x.state = .active y) (hy : y.carrier = .port p) :
    LanesTogether ((s.modifyPort p (·.setReqState r.tag .inFlight)).setEngine g x) := by
  obtain ⟨hcarried, hused⟩ := ht.inFlight
  refine ⟨ht.lanes.setHead hb hr .inFlight, ⟨fun q h => ?_, usesBus_setHead hb hr (fun _ => hbus) hused⟩,
    fun h hoff => ?_⟩
  · refine (exists_inFlight_setHead hb hr .inFlight q h).trans ?_
    have hbefore : HasInFlight (s.port q) h ↔ s.Carries h q := hcarried q h
    rw [hbefore, Carries, setEngine_engine]
    by_cases hh : g = h
    · subst hh
      simp [hidle, hx, hy]
    · simp [hh, Ne.symm hh]
  · have hne : h ≠ g := by
      rintro rfl
      simp [State.offline, hx] at hoff
    have hsame : s.offline h = true := by
      rw [State.offline, setEngine_engine_ne _ hne.symm] at hoff
      exact hoff
    obtain ⟨hlanes, hdue, hholds⟩ := ht.offline h hsame
    exact ⟨fun q => (lane_setHead_other hb hr .inFlight hne q).trans (hlanes q), hdue, hholds⟩

/-! ### Holds (R57, R64) -/

/-- The open HOLD of a waiter is WAITING_HOLD (R54). -/
theorem waiter_state (hw : WaitersSound s) (hb : RequestBounds s) {i : HoldIdx} {e : HoldEntry} (he : s.hold i = some e)
    {w : Waiter} (hmem : w ∈ e.waiters) (hr : r ∈ (s.port w.port).reqs) (htag : r.tag = w.tag) :
    r.state = .waitingHold := by
  obtain ⟨hentries, -⟩ := hw
  obtain ⟨-, -, hopen⟩ := hentries i e he
  obtain ⟨x, hx, hxtag, hstate, -⟩ := hopen w hmem
  rwa [(hb w.port).eq_of_tag hr hx (htag.trans hxtag.symm)]

theorem WaitersSound.congr (hw : WaitersSound s) (hreqs : ∀ p, (t.port p).reqs = (s.port p).reqs)
    (hholds : ∀ i, t.hold i = s.hold i) : WaitersSound t := by
  simpa only [WaitersSound, hreqs, hholds] using hw

theorem handedOver_key {e x : HoldEntry} (h : e.handedOver = some x) : x.key = e.key := by
  unfold HoldEntry.handedOver at h
  split at h
  · cases h
    rfl
  · cases h

theorem Calm.handOver (hb : RequestBounds s) (hw : WaitersSound s) (i : HoldIdx) : Calm s (s.handOver i) := by
  unfold State.handOver
  split
  · exact .refl s
  · next e he =>
    have hset : Calm s (s.setHold i e.handedOver) :=
      .setHold fun x hx _ => ⟨i, e, he, congrArg Key.seg (handedOver_key hx).symm⟩
    split
    · exact hset
    · next w ws hws =>
      dsimp only
      split
      · next r hfind =>
        have hr : r ∈ (s.port w.port).reqs := mem_of_find hfind
        have hstate := waiter_state hw hb he (by simp [hws]) hr (by simpa using List.find?_some hfind)
        exact hset.trans (.completeReq (hb.keeps (setHold_keeps ..)) hr (by simp [hstate]) _)
      · exact hset

theorem Calm.expire (hb : RequestBounds s) (hw : WaitersSound s) (i : HoldIdx) : Calm s (s.expire i) := by
  unfold State.expire
  split
  · exact .refl s
  · next e _ =>
    have hreqs (p : Port) : ((s.modifyPort e.holder (·.addHoldEnd ⟨e.key, .expired⟩)).port p).reqs =
        (s.port p).reqs := by
      rw [modifyPort_port]
      split
      · exact addHoldEnd_reqs ..
      · rfl
    exact (Calm.modifyPort_eq (addHoldEnd_reqs ..)).trans
      (.handOver (hb.addHoldEnd _ _) (hw.congr hreqs fun _ => rfl) i)

theorem Calm.decreaseHold (hb : RequestBounds s) (hw : WaitersSound s) (i : HoldIdx) : Calm s (s.decreaseHold i) := by
  unfold State.decreaseHold
  split
  · exact .refl s
  · next e he =>
    split
    · exact .setHold fun x hx _ => ⟨i, e, he, by cases hx; rfl⟩
    · exact .expire hb hw i

/-! ### Settlements and CANCEL (R45, R55, R56) -/

theorem settleable_readyHead {k : Kind} (hr : s.settleable p g k = some r) : (s.port p).readyHead g = some r :=
  ((settleable_iff k).mp hr).1

theorem LanesTogether.settleHold (ht : LanesTogether s) (hb : RequestBounds s)
    (hr : (s.port p).readyHead g = some r) : LanesTogether (s.settleHold p r) := by
  obtain ⟨hqueued, hg, -⟩ := readyHead_some hr
  have hmem := readyHead_mem hr
  have hcomplete {u : State} (c : Calm s u) (hu : RequestBounds u) (hmem : r ∈ (u.port p).reqs) (e : Ending) :
      LanesTogether (u.completeReq p r e) :=
    ht.calm (c.trans (.completeReq hu hmem (by simp [hqueued]) e))
  have honline : s.offline r.key.seg = false := by
    cases hoff : s.offline r.key.seg with
    | false => rfl
    | true =>
      obtain ⟨hlanes, -, -⟩ := ht.offline _ hoff
      exact absurd rfl (lane_eq_nil.mp (hlanes p) r hmem)
  unfold State.settleHold
  dsimp only
  split
  · next i _ =>
    split
    · next e he =>
      split
      · exact hcomplete (.refl s) hb hmem _
      · have hwaits : Calm s (s.setHold i (some { e with waiters := e.waiters ++ [⟨p, r.tag, r.holdLimit.getD 1⟩] })) :=
          .setHold fun x hx _ => ⟨i, e, he, by cases hx; rfl⟩
        exact (ht.calm hwaits).setHead (hb.keeps (setHold_keeps ..)) hr (st := .waitingHold) nofun
    · exact ht
  · split
    · refine hcomplete (.setHold fun x hx hoff => ?_) (hb.keeps (setHold_keeps ..)) hmem _
      cases hx
      exact absurd (honline.symm.trans hoff) Bool.false_ne_true
    · exact hcomplete (.refl s) hb hmem _

theorem Calm.settleRelease (hb : RequestBounds s) (hw : WaitersSound s) (hr : (s.port p).readyHead g = some r) :
    Calm s (s.settleRelease p r) := by
  obtain ⟨hqueued, -⟩ := readyHead_some hr
  have hmem := readyHead_mem hr
  have hnot : r.state ≠ .inFlight := by simp [hqueued]
  unfold State.settleRelease
  split
  · next i _ =>
    split
    · next hholder =>
      obtain ⟨e, he, rfl⟩ := Option.map_eq_some_iff.mp hholder
      exact (Calm.handOver hb hw i).trans
        (.completeReq (hb.handOver i) ((handOver_port_holder hw he).symm ▸ hmem) hnot _)
    · exact .completeReq hb hmem hnot _
  · exact .completeReq hb hmem hnot _

theorem Calm.cancelReq (hb : RequestBounds s) (p : Port) (tag : Byte) : Calm s (s.cancelReq p tag).1 := by
  unfold State.cancelReq
  split
  · exact .refl s
  · next r hfind =>
    have hmem := mem_of_find hfind
    split
    · next hs => exact .completeReq hb hmem (by simp [hs]) _
    · next hs =>
      exact (Calm.dropWaiters ..).trans
        (.completeReq (hb.keeps (dropWaiters_keeps ..)) hmem (by simp [hs]) _)
    · exact .refl s

end State

end Sys2Proof.Machine
end

section
/-! PROOF. Lanes, engines and offline segments stay in agreement when an engine leaves its transaction, goes offline,
is granted a candidate, is cut or is reset (R52, R67, R78, R92, R94, R102, R109, R112). -/

namespace Sys2Proof.Machine

set_option Elab.async false

open State PortState

namespace State

variable {s t : State} {p q : Port} {g h : Seg} {r : Request}

/-! ### A segment between two states of its engine -/

/-- Segment `g` has no request IN_FLIGHT, and every other segment is as the invariants say. -/
structure TogetherBut (s : State) (g : Seg) : Prop where
  lanes : LanesSound s
  landed : ∀ p, ¬HasInFlight (s.port p) g
  inFlight : ∀ p h, h ≠ g → (HasInFlight (s.port p) h ↔ s.Carries h p)
  usesBus : ∀ p, ∀ r ∈ (s.port p).reqs, r.state = .inFlight → r.kind.usesBus = true
  offline : ∀ h, h ≠ g → s.offline h = true →
    (∀ p, (s.port p).lane h = []) ∧ s.dueOf h = [] ∧ ∀ i e, s.hold i = some e → e.key.seg ≠ h

/-- While its engine carries no port's transaction, a segment has no request IN_FLIGHT (R88). -/
theorem LanesTogether.but (ht : LanesTogether s) (hfree : ∀ p, ¬s.Carries g p) : TogetherBut s g := by
  obtain ⟨hcarried, hbus⟩ := ht.inFlight
  exact ⟨ht.lanes, fun p hp => hfree p ((hcarried p g).mp hp), fun p h _ => hcarried p h, hbus,
    fun h _ hoff => ht.offline h hoff⟩

theorem not_carries_of_state (hs : ∀ x, (s.engine g).state ≠ .active x) (p : Port) : ¬s.Carries g p :=
  fun ⟨x, hx, _⟩ => hs x hx

theorem TogetherBut.together (hb : TogetherBut s g) (hfree : ∀ p, ¬s.Carries g p) (hon : s.offline g = false) :
    LanesTogether s := by
  refine ⟨hb.lanes, ⟨fun p h => ?_, hb.usesBus⟩, fun h hoff => hb.offline h ?_ hoff⟩
  · by_cases hh : h = g
    · subst hh
      exact iff_of_false (hb.landed p) (hfree p)
    · exact hb.inFlight p h hh
  · rintro rfl
    exact absurd (hon.symm.trans hoff) Bool.false_ne_true

theorem carries_setEngine_ne (hne : h ≠ g) (x : Engine) (p : Port) : (s.setEngine g x).Carries h p ↔ s.Carries h p := by
  rw [Carries, setEngine_engine_ne _ hne.symm, Carries]

theorem offline_setEngine_ne (hne : h ≠ g) (x : Engine) : (s.setEngine g x).offline h = s.offline h := by
  rw [State.offline, setEngine_engine_ne _ hne.symm]
  rfl

theorem TogetherBut.setEngine (hb : TogetherBut s g) (x : Engine) : TogetherBut (s.setEngine g x) g where
  lanes := hb.lanes
  landed := hb.landed
  inFlight p h hne := (hb.inFlight p h hne).trans (carries_setEngine_ne hne x p).symm
  usesBus := hb.usesBus
  offline h hne hoff := hb.offline h hne ((offline_setEngine_ne hne x).symm.trans hoff)

/-- What is left of a due list when a poll is granted (R78). -/
theorem TogetherBut.setDue (hb : TogetherBut s g) (l : List PollIdx) : TogetherBut (s.setDue g l) g where
  lanes := hb.lanes
  landed := hb.landed
  inFlight := hb.inFlight
  usesBus := hb.usesBus
  offline h hne hoff := by
    obtain ⟨hlanes, hdue, hholds⟩ := hb.offline h hne hoff
    exact ⟨hlanes, by rw [setDue_dueOf, if_neg hne.symm]; exact hdue, hholds⟩

/-- An engine state in which the segment is online and no port's transaction is carried. -/
def vacant : EngineState → Bool
  | .active t => match t.carrier with
    | .port _ => false
    | .poll _ | .cut _ => true
  | .faulted | .disabled => false
  | .idle | .checking _ _ | .recovering _ _ _ => true

theorem not_carries_of_vacant (hv : vacant (s.engine g).state = true) (p : Port) : ¬s.Carries g p := by
  rintro ⟨x, hx, hcarrier⟩
  simp [vacant, hx, hcarrier] at hv

theorem online_of_vacant (hv : vacant (s.engine g).state = true) : s.offline g = false := by
  unfold State.offline
  cases hs : (s.engine g).state <;> simp [vacant, hs] at hv ⊢

/-- The engine takes a state that asks nothing of the lanes. -/
theorem TogetherBut.vacate (hb : TogetherBut s g) {x : Engine} (hv : vacant x.state = true) :
    LanesTogether (s.setEngine g x) := by
  have hv' : vacant ((s.setEngine g x).engine g).state = true := by rw [setEngine_engine_self]; exact hv
  exact (hb.setEngine x).together (not_carries_of_vacant hv') (online_of_vacant hv')

theorem TogetherBut.setEngineState (hb : TogetherBut s g) {st : EngineState} (hv : vacant st = true) :
    LanesTogether (s.setEngineState g st) := hb.vacate hv

/-! ### Going offline (R102) -/

/-- A drain leaves nothing open on a segment with nothing IN_FLIGHT. -/
theorem TogetherBut.drained (hb : TogetherBut s g) (o : OfflineEffects s t g) (hfree : ∀ p, ¬t.Carries g p) :
    LanesTogether t := by
  have hmem (p : Port) (r : Request) :
      r ∈ (t.port p).reqs ↔ r ∈ (s.port p).reqs ∧ (r.key.seg = g → r.state = .inFlight) := by
    rw [(o.requests p).reqs]
    simp [imp_iff_not_or]
  have hreqs (p : Port) : (t.port p).reqs.Sublist (s.port p).reqs := by
    rw [(o.requests p).reqs]
    exact List.filter_sublist
  have hlanded (p : Port) : (t.port p).lane g = [] := by
    refine lane_eq_nil.mpr fun r hr hg => ?_
    obtain ⟨hr, hflight⟩ := (hmem p r).mp hr
    exact hb.landed p ⟨r, hr, hg, hflight hg⟩
  have hother {h : Seg} (hne : h ≠ g) (p : Port) : HasInFlight (t.port p) h ↔ HasInFlight (s.port p) h := by
    simp only [HasInFlight, hmem]
    constructor
    · rintro ⟨r, ⟨hr, -⟩, hk, hs⟩
      exact ⟨r, hr, hk, hs⟩
    · rintro ⟨r, hr, hk, hs⟩
      exact ⟨r, ⟨hr, fun _ => hs⟩, hk, hs⟩
  refine ⟨hb.lanes.thinned hreqs, ⟨fun p h => ?_, fun p r hr => hb.usesBus p r ((hreqs p).subset hr)⟩, fun h hoff => ?_⟩
  · by_cases hne : h = g
    · subst hne
      refine iff_of_false (fun ⟨r, hr, hk, _⟩ => ?_) (hfree p)
      exact lane_eq_nil.mp (hlanded p) r hr hk
    · refine (hother hne p).trans ((hb.inFlight p h hne).trans ?_)
      unfold Carries
      rw [o.otherEngines h hne]
  · by_cases hne : h = g
    · subst hne
      refine ⟨hlanded, o.dueEmpty, fun i e he => ?_⟩
      rw [o.holds, Option.filter_eq_some_iff] at he
      simpa using he.2
    · rw [State.offline, o.otherEngines h hne] at hoff
      obtain ⟨hlanes, hdue, hholds⟩ := hb.offline h hne hoff
      refine ⟨fun p => List.sublist_nil.mp (hlanes p ▸ lane_sublist (hreqs p) h), (o.otherDue h hne).trans hdue,
        fun i e he => ?_⟩
      rw [o.holds, Option.filter_eq_some_iff] at he
      exact hholds i e he.1

theorem TogetherBut.enterDisabled (hb : TogetherBut s g) : LanesTogether (s.enterDisabled g) := by
  refine hb.drained (enterDisabled_effects s g) (not_carries_of_state fun x hx => ?_)
  rw [enterDisabled_engine, if_pos rfl] at hx
  cases hx

theorem TogetherBut.enterFaulted (hb : TogetherBut s g) (reason : FaultReason) :
    LanesTogether (s.enterFaulted g reason) := by
  refine hb.drained (enterFaulted_effects s g reason) (not_carries_of_state fun x hx => ?_)
  rw [enterFaulted_engine, if_pos rfl] at hx
  cases hx

theorem TogetherBut.tryRecovery (hb : TogetherBut s g) : LanesTogether (s.tryRecovery g) := by
  unfold State.tryRecovery
  dsimp only
  split
  · exact hb.vacate rfl
  · exact hb.enterFaulted _

theorem TogetherBut.leaveTo (hb : TogetherBut s g) {next : EngineState} (hv : vacant next = true) :
    LanesTogether (s.leaveTo g next) := by
  unfold State.leaveTo
  split
  · exact hb.enterDisabled
  · exact hb.setEngineState hv

theorem TogetherBut.afterPulse (hb : TogetherBut s g) (n : Nat) (hub sda : Bool) :
    LanesTogether (s.afterPulse g n hub sda) := by
  unfold State.afterPulse
  split
  · exact hb.setEngineState rfl
  · split
    · exact hb.setEngineState rfl
    · split
      · exact hb.setEngineState rfl
      · exact hb.enterFaulted _

/-! ### The end of a transaction (R94, R95, R96) -/

/-- The one request that a port has IN_FLIGHT on a segment completes (R38, R94). -/
theorem LanesTogether.completeInFlight (ht : LanesTogether s) (hb : RequestBounds s) {x : Transaction}
    (hx : (s.engine g).state = .active x) (hp : x.carrier = .port p) (hr : s.inFlightReq p g = some r) (e : Ending) :
    TogetherBut (s.completeReq p r e) g := by
  obtain ⟨hcarried, hbus⟩ := ht.inFlight
  obtain ⟨hflight, hg⟩ : r.state = .inFlight ∧ r.key.seg = g := by simpa using List.find?_some hr
  have hmem := inFlightReq_mem hr
  have hport {q : Port} {y : Request} :
      y ∈ ((s.completeReq p r e).port q).reqs ↔ y ∈ (s.port q).reqs ∧ (p = q → y ≠ r) := by
    by_cases hpq : p = q
    · subst hpq
      rw [completeReq_port_self, mem_complete_reqs (hb p) hmem e]
      simp
    · simp [completeReq_port_ne s hpq, hpq]
  have hsub (q : Port) : ((s.completeReq p r e).port q).reqs.Sublist (s.port q).reqs := by
    by_cases hpq : p = q
    · subst hpq
      rw [completeReq_port_self, complete_reqs]
      exact List.eraseP_sublist
    · rw [completeReq_port_ne s hpq]
  refine ⟨ht.lanes.thinned hsub, fun q ⟨y, hy, hyg, hyflight⟩ => ?_, fun q h hne => ?_,
    fun q y hy => hbus q y ((hsub q).subset hy), fun h _ hoff => ?_⟩
  · obtain ⟨hy, hyr⟩ := hport.mp hy
    obtain ⟨z, hz, hq⟩ := (hcarried q g).mp ⟨y, hy, hyg, hyflight⟩
    have hpq : p = q := by
      cases hx.symm.trans hz
      cases hp.symm.trans hq
      rfl
    subst hpq
    exact hyr rfl (eq_of_not_queued (ht.lanes p g) (mem_lane.mpr ⟨hy, hyg⟩) (mem_lane.mpr ⟨hmem, hg⟩)
      (by simp [hyflight]) (by simp [hflight]))
  · refine Iff.trans ⟨?_, ?_⟩ (hcarried q h)
    · rintro ⟨y, hy, hk, hs⟩
      exact ⟨y, (hport.mp hy).1, hk, hs⟩
    · rintro ⟨y, hy, hk, hs⟩
      exact ⟨y, hport.mpr ⟨hy, fun _ e => hne (by rw [← hk, e, hg])⟩, hk, hs⟩
  · obtain ⟨hlanes, hdue, hholds⟩ := ht.offline h hoff
    exact ⟨fun q => List.sublist_nil.mp (hlanes q ▸ lane_sublist (hsub q) h), hdue, hholds⟩

/-- The outcome is handed over, and the segment has nothing IN_FLIGHT any more (R94). -/
theorem LanesTogether.handOutcome (ht : LanesTogether s) (hb : RequestBounds s) {x : Transaction}
    (hx : (s.engine g).state = .active x) (e : Ending) : TogetherBut (s.handOutcome g x.carrier e) g := by
  have hcarries {q : Port} (hq : s.Carries g q) : x.carrier = .port q := by
    obtain ⟨y, hy, hcarrier⟩ := hq
    cases hx.symm.trans hy
    exact hcarrier
  unfold State.handOutcome
  split
  · next p hp =>
    obtain ⟨r, hr⟩ : ∃ r, s.inFlightReq p g = some r := by
      obtain ⟨r, hr, hg, hs⟩ := (ht.inFlight.1 p g).mpr ⟨x, hx, hp⟩
      exact Option.isSome_iff_exists.mp (List.find?_isSome.mpr ⟨r, hr, by simp [hs, hg]⟩)
    rw [hr]
    exact ht.completeInFlight hb hx hp hr e
  · next n hn =>
    have c := Calm.completePoll s n e.status e.readData
    exact (ht.calm c).but fun q hq => by simpa [hn] using hcarries ((c.carries g q).mp hq)
  · next cause hc => exact ht.but fun q hq => by simpa [hc] using hcarries hq

theorem LanesTogether.endTransaction (ht : LanesTogether s) (hb : RequestBounds s) {x : Transaction}
    (hx : (s.engine g).state = .active x) (e : Ending) : LanesTogether (s.endTransaction g x e) := by
  have hcount : Calm s ((s.count g (countEnd e.status)).clearTries g) :=
    (Calm.setEngine (by rfl)).trans (.setEngine (by rfl))
  have hstate : (((s.count g (countEnd e.status)).clearTries g).engine g).state = .active x := by
    simpa [clearTries, count] using hx
  have hbounds : RequestBounds ((s.count g (countEnd e.status)).clearTries g) :=
    (hb.keeps (count_keeps ..)).keeps (setEngine_keeps ..)
  exact ((ht.calm hcount).handOutcome hbounds hstate e).leaveTo rfl

/-- A transaction whose end is counted hands its outcome over. -/
theorem LanesTogether.count_handOutcome (ht : LanesTogether s) (hb : RequestBounds s) {x : Transaction}
    (hx : (s.engine g).state = .active x) (f : Stats → Stats) (e : Ending) :
    TogetherBut ((s.count g f).handOutcome g x.carrier e) g :=
  (ht.calm (.setEngine (by rfl))).handOutcome (hb.keeps (count_keeps ..)) (by simpa [count] using hx) e

theorem LanesTogether.conflict (ht : LanesTogether s) (hb : RequestBounds s) {x : Transaction}
    (hx : (s.engine g).state = .active x) (acks : List Bool) : LanesTogether (s.conflict g x acks) :=
  (ht.count_handOutcome hb hx _ _).leaveTo rfl

theorem LanesTogether.expireLimit (ht : LanesTogether s) (hb : RequestBounds s) {x : Transaction}
    (hx : (s.engine g).state = .active x) (acks : List Bool) : LanesTogether (s.expireLimit g x acks) := by
  unfold State.expireLimit
  dsimp only
  split
  · exact (ht.count_handOutcome hb hx _ _).enterDisabled
  · exact (ht.count_handOutcome hb hx _ _).tryRecovery

/-! ### The grant (R62, R78, R92) -/

theorem candidate_request {c : Contender} (hc : s.candidate g c = some (.request p r)) :
    s.portCandidate g p = some r := by
  unfold candidate at hc
  split at hc
  · obtain ⟨x, hx, e⟩ := Option.map_eq_some_iff.mp hc
    cases e
    exact hx
  · simp at hc

theorem LanesTogether.grant (ht : LanesTogether s) (hb : RequestBounds s) (hidle : (s.engine g).state = .idle)
    {c : Candidate} (hc : ∀ p r, c = .request p r → s.portCandidate g p = some r) : LanesTogether (s.grant g c) := by
  cases c with
  | request p r =>
    obtain ⟨hr, hbus, -⟩ := portCandidate_iff.mp (hc p r rfl)
    exact ht.start hb hr hbus hidle rfl rfl
  | poll n =>
    have hbut : TogetherBut s g := ht.but (not_carries_of_state fun x hx => by simp [hidle] at hx)
    have hset := (hbut.setDue ((s.dueOf g).erase n)).vacate
      (x := startEngine (s.engine g) (.poll n) (s.workOf (.poll n)) s.freeCount) rfl
    exact hset.calm (.of_keeps (setPoll_keeps _ n { s.poll n with mark := .inFlight }))

theorem LanesTogether.runDecision (g : Seg) (fuel : Nat) : ∀ {s : State}, LanesTogether s → RequestBounds s →
    (s.engine g).state = .idle → LanesTogether (State.runDecision g fuel s) := by
  induction fuel with
  | zero => intro s ht _ _; exact ht
  | succ fuel ih =>
    intro s ht hb hidle
    have harbiter (a : Arbiter) : LanesTogether (s.setArbiter g a) := ht.calm (.of_keeps (setArbiter_keeps ..))
    have hbounds (a : Arbiter) : RequestBounds (s.setArbiter g a) := hb.keeps (setArbiter_keeps ..)
    unfold State.runDecision
    split
    · exact ht
    · split
      · exact ht
      · next hc =>
        have hport := candidate_request hc
        split
        · obtain ⟨hready, -⟩ := portCandidate_iff.mp hport
          obtain ⟨hqueued, -⟩ := readyHead_some hready
          have hmem := readyHead_mem hready
          exact ih ((harbiter _).calm (.completeReq (hbounds _) hmem (by simp [hqueued]) _))
            ((hbounds _).completeReq hmem _) hidle
        · exact (harbiter _).grant (hbounds _) hidle fun p r e => by cases e; exact hport
      · exact (harbiter _).grant (hbounds _) hidle nofun

end State

end Sys2Proof.Machine
end

section
/-! PROOF. Lanes, engines and offline segments under the two resets, and under every command and step (R49, R68, R110,
R112, R160, R164). -/

namespace Sys2Proof.Machine

set_option Elab.async false

open State PortState

namespace State

variable {s t : State} {p q : Port} {g h : Seg} {r : Request}

/-! ### The port reset (R160) -/

theorem foldl_addNotices_reqs (f : SemIdx → NoticeSets) (l : List SemIdx) : ∀ ps : PortState,
    (l.foldl (fun ps n => ps.addNotices (f n)) ps).reqs = ps.reqs := by
  induction l with
  | nil => intro ps; rfl
  | cons n l ih => intro ps; rw [List.foldl_cons, ih, addNotices_reqs]

/-- A waiter that a port reset serves waits on an entry for its port (R68). -/
theorem servedBy_waits {w : Waiter} (h : w ∈ s.servedBy p q) :
    w.port = q ∧ ∃ i e, s.hold i = some e ∧ w ∈ e.waiters := by
  obtain ⟨i, -, hi⟩ := List.mem_filterMap.mp h
  cases he : s.hold i with
  | none => simp [he] at hi
  | some e =>
    by_cases hp : e.holder = p
    · cases hw : e.waiters.filter fun w => w.port != p with
      | nil => simp [he, hp, hw] at hi
      | cons x xs =>
        obtain ⟨hport, rfl⟩ : x.port = q ∧ x = w := by simpa [he, hp, hw] using hi
        exact ⟨hport, i, e, he, List.mem_of_mem_filter (hw ▸ List.mem_cons_self)⟩
    · simp [he, hp] at hi

/-- Another port loses no request to a port reset but HOLDs that waited (R68). -/
theorem resetPort_thinned (hb : RequestBounds s) (hw : WaitersSound s) (hne : q ≠ p) :
    Thinned (s.port q).reqs ((s.resetPort p).port q).reqs := by
  rw [resetPort_port_other s hne, foldl_addNotices_reqs]
  refine .grantAll fun w hmem r hr htag => ?_
  obtain ⟨rfl, i, e, he, hwaits⟩ := servedBy_waits hmem
  simp [waiter_state hw hb he hwaits hr htag]

theorem resetPort_reqs_self (s : State) (p : Port) : ((s.resetPort p).port p).reqs = [] := by
  rw [resetPort_port_self]
  rfl

theorem resetPort_offline (s : State) (p : Port) (g : Seg) : (s.resetPort p).offline g = s.offline g := by
  unfold State.offline
  rw [resetPort_engine]
  by_cases hp : ∃ x, (s.engine g).state = .active x ∧ x.carrier = .port p
  · obtain ⟨x, hx, hcarrier⟩ := hp
    rw [cutPort_of_carrier hx hcarrier, hx]
  · push Not at hp
    rw [cutPort_of_not_carrier hp]

theorem resetPort_carries (s : State) (p q : Port) (g : Seg) :
    (s.resetPort p).Carries g q ↔ s.Carries g q ∧ q ≠ p := by
  unfold Carries
  rw [resetPort_engine]
  by_cases hp : ∃ x, (s.engine g).state = .active x ∧ x.carrier = .port p
  · obtain ⟨x, hx, hcarrier⟩ := hp
    rw [cutPort_of_carrier hx hcarrier]
    simp [hx, hcarrier, Transaction.cut, eq_comm]
  · push Not at hp
    rw [cutPort_of_not_carrier hp]
    refine ⟨fun ⟨x, hx, hq⟩ => ⟨⟨x, hx, hq⟩, ?_⟩, And.left⟩
    rintro rfl
    exact hp x hx hq

theorem resetPort_hold_key {i : HoldIdx} {e : HoldEntry} (he : (s.resetPort p).hold i = some e) :
    ∃ x, s.hold i = some x ∧ x.key = e.key := by
  rw [resetPort_hold] at he
  obtain ⟨y, hy, he⟩ := Option.bind_eq_some_iff.mp he
  obtain ⟨x, hx, rfl⟩ := Option.map_eq_some_iff.mp hy
  refine ⟨x, hx, ?_⟩
  split at he
  · exact (handedOver_key he).symm
  · cases he
    rfl

theorem LanesTogether.resetPort (ht : LanesTogether s) (hb : RequestBounds s) (hw : WaitersSound s) (p : Port) :
    LanesTogether (s.resetPort p) := by
  obtain ⟨hcarried, hbus⟩ := ht.inFlight
  have hreqs (q : Port) : ((s.resetPort p).port q).reqs.Sublist (s.port q).reqs := by
    by_cases hne : q = p
    · rw [hne, resetPort_reqs_self]
      exact List.nil_sublist _
    · exact (resetPort_thinned hb hw hne).sublist
  refine ⟨ht.lanes.thinned hreqs, ⟨fun q g => ?_, fun q r hr => hbus q r ((hreqs q).subset hr)⟩,
    ht.offline.thinned hreqs (resetPort_offline s p) (fun g _ hdue => ?_) fun i e he _ => ?_⟩
  · refine Iff.trans ?_ (resetPort_carries s p q g).symm
    by_cases hne : q = p
    · subst hne
      simp [resetPort_reqs_self]
    · refine ((resetPort_thinned hb hw hne).exists_inFlight_iff g).trans ((hcarried q g).trans ?_)
      exact ⟨fun hc => ⟨hc, hne⟩, And.left⟩
  · rw [(resetPort_keeps s p).dueOf]
    exact hdue
  · obtain ⟨x, hx, hkey⟩ := resetPort_hold_key he
    exact ⟨i, x, hx, congrArg Key.seg hkey⟩

/-! ### The HUB RESET (R164) -/

/-- After a HUB RESET nothing is open, due or held, and no engine carries a port's transaction. -/
theorem LanesTogether.hubReset (s : State) : LanesTogether s.hubReset := by
  have o := hubReset_effects s
  have hreqs (p : Port) : (s.hubReset.port p).reqs = [] := congrArg PortState.reqs (o.ports p)
  have hfree (g : Seg) (p : Port) : ¬s.hubReset.Carries g p := by
    rintro ⟨y, hy, hcarrier⟩
    rw [hubReset_engine] at hy
    cases hs : (s.engine g).state with
    | active x =>
      simp only [Engine.hubReset, EngineState.hubReset, hs, EngineState.active.injEq] at hy
      subst hy
      cases hcarrier
    | recovering step marks hub => cases step <;> simp [Engine.hubReset, EngineState.hubReset, hs] at hy
    | _ => simp [Engine.hubReset, EngineState.hubReset, hs] at hy
  refine ⟨fun p g r hr => ?_, ⟨fun p g => ?_, fun p r hr => ?_⟩,
    fun g _ => ⟨fun p => lane_eq_nil.mpr (by simp [hreqs]), o.due g, fun i e he => ?_⟩⟩
  · rw [lane_eq_nil.mpr (by simp [hreqs])] at hr
    cases hr
  · exact iff_of_false (by simp [hreqs]) (hfree g p)
  · simp [hreqs] at hr
  · rw [o.holds] at he
    cases he

/-! ### Every command -/

theorem LanesTogether.next {u : State} (ht : LanesTogether u)
    (e : (.next u : Host.Outcome State Fault Refusal) = .next t) : LanesTogether t := by
  cases e
  exact ht

theorem Calm.pending (s : State) (l : List Instr) : Calm s { s with pending := l } :=
  ⟨fun _ => .refl _, fun _ _ => .rfl, fun _ => rfl, fun _ _ h => h, fun i e h _ => ⟨i, e, h, rfl⟩⟩

theorem Calm.setPrst (s : State) (p : Port) (b : Bool) : Calm s (s.setPrst p b) := .modifyPort_eq rfl

theorem LanesTogether.noFrame (ht : LanesTogether s) (p : Port) : LanesTogether (s.noFrame p) := ht.calm (.noFrame s p)

theorem LanesTogether.takeFrame (ht : LanesTogether s) {k : Option FrameKind} {n : Nat} {act : State → Answer}
    (hact : LanesTogether (act (s.noFrame p)).state) : LanesTogether (Machine.takeFrame p k n act s) := by
  unfold Machine.takeFrame
  split
  · exact hact.calm (.modifyPort_eq rfl)
  · exact ht

theorem LanesTogether.claimedFrame (ht : LanesTogether s) {n : Nat} {b : Byte} {k : FrameKind}
    {act : State → Fin n → Answer} (hact : ∀ s i, LanesTogether s → LanesTogether (act s i).state) :
    LanesTogether (Machine.claimedFrame p k b act s) := by
  unfold Machine.claimedFrame frameOf
  refine ht.takeFrame ?_
  unfold withClaim withIndex
  split
  · split
    · exact hact _ _ (ht.noFrame p)
    · exact ht.noFrame p
  · exact ht.noFrame p

theorem LanesTogether.frameEnd (ht : LanesTogether s) {k : FrameKind} {act : Snapshot → State → State}
    (hact : ∀ x, LanesTogether (act x (s.noFrame p))) : LanesTogether (Machine.frameEnd p k act s) := by
  unfold Machine.frameEnd
  split
  · split
    · exact hact _
    · exact ht
  · exact ht

theorem LanesTogether.hubEvent (ht : LanesTogether s) {act : State → State} (hact : LanesTogether (act s)) :
    LanesTogether (Machine.hubEvent act s) := by
  unfold Machine.hubEvent
  split
  · exact ht
  · exact hact

theorem WaitersSound.noFrame (hw : WaitersSound s) (p : Port) : WaitersSound (s.noFrame p) :=
  hw.congr (noFrame_port_reqs s p) fun _ => rfl

/-- Without a failing check the segment takes requests (R12), so it is online. -/
theorem online_of_no_code {f : SubmitFields} (hcode : s.submitCode p f = none) :
    s.offline (s.recorded f).key.seg = false := by
  obtain ⟨k, hk, -⟩ := kind_of_no_code hcode
  obtain ⟨x, hx⟩ := resolved_of_no_code hcode
  have htakes := check_passes hcode
    (c := (((s.resolved f).map (·.1)).all fun k => takesRequests (s.engine k.seg), .segmentOffline))
    (by simp [submitChecks])
  have hstate : takesRequests (s.engine x.1.seg) = true := by simpa [hx] using htakes
  rw [recorded_eq s hk hx]
  show s.offline x.1.seg = false
  unfold State.offline
  cases hs : (s.engine x.1.seg).state <;> simp [takesRequests, hs] at hstate ⊢

theorem LanesTogether.segmentDisable (ht : LanesTogether s) (g : Seg) : LanesTogether (s.segmentDisable g).state := by
  have hlater : LanesTogether (s.disableLater g) := ht.calm (.setEngine (by rfl))
  unfold State.segmentDisable
  split
  · exact ht
  iterate 4
    · next hs => exact (ht.but (not_carries_of_state fun x hx => by simp [hs] at hx)).enterDisabled
  iterate 3
    · exact hlater

theorem not_active_of_offline (hoff : s.offline g = true) (x : Transaction) : (s.engine g).state ≠ .active x := by
  intro hx
  simp [State.offline, hx] at hoff

theorem LanesTogether.segmentRestore (ht : LanesTogether s) (g : Seg) : LanesTogether (s.segmentRestore g).state := by
  unfold State.segmentRestore
  split
  · next hoff =>
    exact ((ht.but (not_carries_of_state (not_active_of_offline hoff))).vacate rfl).calm (.segmentNotice _ g)
  · exact ht

theorem LanesTogether.of_pinReset {roles : Port → Role} {low : Port → Bool} (o : PinResetValues t roles low) :
    LanesTogether t := ⟨o.lanesSound, o.inFlightSound, o.offlineSegmentsIdle⟩

/-- A command that moves lanes or engines keeps them in agreement, given that the tags of a port are its own and that
the waiters are the open HOLDs that wait (R8, R54). -/
theorem LanesTogether.exec (ht : LanesTogether s) (hb : RequestBounds s) (hw : WaitersSound s) {c : Instr}
    (e : Machine.exec c s = .next t) : LanesTogether t := by
  have hbut {g : Seg} {st : EngineState} (hs : (s.engine g).state = st) (hst : ∀ x, st ≠ .active x := by nofun) :
      TogetherBut s g := ht.but (not_carries_of_state fun x hx => hst x (hs.symm.trans hx))
  cases c with
  | submit p f =>
    refine (ht.takeFrame ?_).next e
    split
    · next r hr =>
      obtain ⟨hcode, rfl⟩ := admission_ok hr
      exact (ht.noFrame p).addOpen rfl (online_of_no_code hcode)
    · exact ht.noFrame p
  | cancel p tag => exact (ht.takeFrame ((ht.noFrame p).calm (.cancelReq (hb.noFrame p) p tag))).next e
  | segmentDisable p b => exact (ht.claimedFrame fun _ g ht => ht.segmentDisable g).next e
  | segmentRestore p b => exact (ht.claimedFrame fun _ g ht => ht.segmentRestore g).next e
  | portResetNormalEnd p =>
    refine (ht.frameEnd fun _ => ?_).next e
    exact (ht.noFrame p).resetPort (hb.noFrame p) (hw.noFrame p) p
  | hubResetNormalEnd p =>
    refine (ht.frameEnd fun x => ?_).next e
    split
    · exact .hubReset _
    · exact ht.noFrame p
  | prstxnFall p =>
    refine LanesTogether.next ?_ e
    split
    · exact (ht.resetPort hb hw p).calm (.setPrst _ p true)
    · exact ht.calm (.setPrst s p true)
  | resetnRise a b c =>
    obtain ⟨u, hu, hvalues⟩ := exec_resetnRise_values s #v[a, b, c]
    exact (LanesTogether.of_pinReset hvalues).next (hu.symm.trans e)
  | arbiterDecision g =>
    refine (ht.hubEvent ?_).next e
    split
    · next hmay => exact .runDecision g _ ht hb (by simp [mayDecide] at hmay; exact hmay.1)
    · exact ht
  | holdSettlement p g =>
    refine (ht.hubEvent ?_).next e
    split
    · next hr => exact ht.settleHold hb (settleable_readyHead hr)
    · exact ht
  | releaseSettlement p g =>
    refine (ht.hubEvent ?_).next e
    split
    · next hr => exact ht.calm (.settleRelease hb hw (settleable_readyHead hr))
    · exact ht
  | holdDecrease i => exact (ht.hubEvent (ht.calm (.decreaseHold hb hw i))).next e
  | holdExpiry i =>
    refine (ht.hubEvent ?_).next e
    split
    · split
      · exact ht.calm (.expire hb hw i)
      · exact ht
    · exact ht
  | transactionEnd g acks data =>
    refine (ht.hubEvent ?_).next e
    split
    · next hs =>
      split
      · exact ht
      · exact ht.endTransaction hb hs _
    · exact ht
  | lineConflict g acks =>
    refine (ht.hubEvent ?_).next e
    split
    · next hs => exact ht.conflict hb hs acks
    · exact ht
  | timeout g acks =>
    refine (ht.hubEvent ?_).next e
    split
    · next hs => exact ht.expireLimit hb hs acks
    · exact ht
  | cutEnd g =>
    refine (ht.hubEvent ?_).next e
    split
    · next x hs =>
      split
      · next cause hcut =>
        have hfree : TogetherBut s g := ht.but fun p ⟨y, hy, hp⟩ => by
          cases hs.symm.trans hy
          cases hcut.symm.trans hp
        exact hfree.leaveTo (by cases cause <;> rfl)
      all_goals exact ht
    · exact ht
  | lineLowInIdle g =>
    refine (ht.hubEvent ?_).next e
    split
    · next hs => exact (hbut hs).setEngineState rfl
    · exact ht
  | freeWindowComplete g | freeWindowRestart g | recoverySclHigh g sda =>
    refine (ht.hubEvent ?_).next e
    split
    · next hs => exact (hbut hs).setEngineState rfl
    · exact ht
  | limitWindowEnd g =>
    refine (ht.hubEvent ?_).next e
    split
    · next hs => exact (hbut hs).tryRecovery
    · exact ht
  | recoverySclTimeout g =>
    refine (ht.hubEvent ?_).next e
    split
    · next hs =>
      split
      · exact (hbut hs).enterDisabled
      · exact (hbut hs).enterFaulted _
    · exact ht
  | recoveryPulseEnd g sda =>
    refine (ht.hubEvent ?_).next e
    split
    · next hs =>
      split
      · exact (hbut hs).enterDisabled
      · exact (hbut hs).afterPulse _ _ sda
    · exact ht
  | recoveryStopEnd g =>
    refine (ht.hubEvent ?_).next e
    split
    · next hs => exact (hbut hs).leaveTo rfl
    · exact ht
  | _ => exact ht.calm (exec_calm rfl e)

end State

/-- Settles O57: the commands that leave lanes and engines alone thin the lanes at most, and each of the others is a
move of one lane's head, of one engine whose segment has nothing IN_FLIGHT any more, or a reset. -/
theorem stepKeepsLanesAndEnginesTogether : Obligations.StepKeepsLanesAndEnginesTogether := by
  intro s t hb hlanes hflight hoffline _ hw e
  have ht : LanesTogether s := ⟨hlanes, hflight, hoffline⟩
  have hkept : LanesTogether t := by
    unfold step at e
    split at e
    · exact (ht.calm (.idle s)).next e
    · next rest _ =>
      exact (ht.calm (.pending s rest)).exec hb hw e
  exact ⟨hkept.lanes, hkept.inFlight, hkept.offline⟩

end Sys2Proof.Machine
end

section
/-! PROOF. Hand-over, decrease and expiry of a hold, by what its entry has (R57, R63, R64). -/

namespace Sys2Proof.Machine

set_option Elab.async false

open State PortState

variable {s : State} {i : HoldIdx} {e : HoldEntry}

namespace State

/-! ### Hand-over (R57) -/

theorem handOver_of_free (he : s.hold i = none) : s.handOver i = s := by
  simp [handOver, he]

theorem handOver_of_no_waiter (he : s.hold i = some e) (hw : e.waiters = []) : s.handOver i = s.setHold i none := by
  simp [handOver, he, hw, HoldEntry.handedOver]

/-- The first waiter becomes the holder with its own limit, and its HOLD completes. -/
theorem handOver_of_waiter (he : s.hold i = some e) {w : Waiter} {ws : List Waiter} (hw : e.waiters = w :: ws)
    {r : Request} (hr : (s.port w.port).find w.tag = some r) :
    s.handOver i = (s.setHold i (some ⟨e.key, w.port, w.limit, ws⟩)).completeReq w.port r
      { status := .holdGranted, holdRemaining := some w.limit } := by
  simp [handOver, he, hw, hr, HoldEntry.handedOver]

/-! ### Decrease and expiry (R63, R64) -/

theorem expire_of_free (he : s.hold i = none) : s.expire i = s := by
  simp [expire, he]

theorem expire_of_used (he : s.hold i = some e) :
    s.expire i = (s.modifyPort e.holder (·.addHoldEnd ⟨e.key, .expired⟩)).handOver i := by
  simp [expire, he]

theorem decreaseHold_of_free (he : s.hold i = none) : s.decreaseHold i = s := by
  simp [decreaseHold, he]

theorem decreaseHold_of_more (he : s.hold i = some e) (hmore : 1 < e.remaining) :
    s.decreaseHold i = s.setHold i (some { e with remaining := e.remaining - 1 }) := by
  simp [decreaseHold, he, hmore]

/-- The decrease that brings remaining to 0 is the expiry. -/
theorem decreaseHold_of_last (he : s.hold i = some e) (hlast : e.remaining ≤ 1) : s.decreaseHold i = s.expire i := by
  simp [decreaseHold, he, Nat.not_lt.mpr hlast]

end State

theorem exec_holdDecrease (hheld : s.held = false) : exec (.holdDecrease i) s = .next (s.decreaseHold i) :=
  congrArg Host.Outcome.next (hubEvent_running hheld)

theorem exec_holdExpiry_of_last (hheld : s.held = false) (he : s.hold i = some e) (hlast : e.remaining ≤ 1) :
    exec (.holdExpiry i) s = .next (s.expire i) := by
  refine congrArg Host.Outcome.next ((hubEvent_running hheld).trans ?_)
  simp [he, hlast]

/-- HOLD_EXPIRY acts only where the next decrease brings remaining to 0 (log 12). -/
theorem exec_holdExpiry_of_not_last (hnot : ∀ e, s.hold i = some e → 1 < e.remaining) :
    exec (.holdExpiry i) s = .next s := by
  refine congrArg Host.Outcome.next (hubEvent_eq_self ?_)
  cases he : s.hold i with
  | none => rfl
  | some e => simp [Nat.not_le.mpr (hnot e he)]

/-- Settles O42: the entry is free or used, with a waiter or none, and remaining stays above 0 or reaches it. -/
theorem handOverAndExpiry : Obligations.HandOverAndExpiry := by
  refine ⟨fun s i e he => ⟨handOver_of_no_waiter he, fun w ws r hw hr => handOver_of_waiter he hw hr⟩,
    fun s i hheld => ⟨fun hfree => ⟨?_, ?_⟩, fun e he => ⟨fun hmore => ⟨?_, ?_⟩, fun hlast => ⟨?_, ?_⟩⟩⟩⟩
  · rw [exec_holdDecrease hheld, decreaseHold_of_free hfree]
  · exact exec_holdExpiry_of_not_last fun e he => by simp [hfree] at he
  · rw [exec_holdDecrease hheld, decreaseHold_of_more he hmore]
  · refine exec_holdExpiry_of_not_last fun x hx => ?_
    cases he.symm.trans hx
    exact hmore
  · rw [exec_holdDecrease hheld, decreaseHold_of_last he hlast, expire_of_used he]
  · rw [exec_holdExpiry_of_last hheld he hlast, exec_holdDecrease hheld, decreaseHold_of_last he hlast]

end Sys2Proof.Machine
end

section
/-! PROOF. A decision whose winner has lost its hold, and a decision that is none (R62, R76, R78). -/

namespace Sys2Proof.Machine

set_option Elab.async false

open State PortState

variable {s : State} {g : Seg} {p : Port} {r : Request}

namespace State

/-! ### One round of a decision -/

theorem runDecision_of_no_winner (hw : s.winner g = none) (fuel : Nat) : runDecision g fuel s = s := by
  cases fuel with
  | zero => rfl
  | succ fuel => simp [runDecision, hw]

theorem runDecision_of_lost {c : Contender} {a : Arbiter} (hw : s.winner g = some (c, a))
    (hc : s.candidate g c = some (.request p r)) (hlost : s.losesHold p r = true) (fuel : Nat) :
    runDecision g (fuel + 1) s = runDecision g fuel ((s.setArbiter g a).completeReq p r { status := .holdLost }) := by
  simp [runDecision, hw, hc, hlost]

/-- The request that completes is one open request less. -/
theorem openCount_completeReq (hr : r ∈ (s.port p).reqs) (e : Ending) :
    (s.completeReq p r e).openCount + 1 = s.openCount := by
  have hself : ((s.completeReq p r e).port p).reqs.length + 1 = (s.port p).reqs.length := by
    have hpos := List.length_pos_of_mem hr
    rw [completeReq_port_self, complete_reqs, List.length_eraseP_of_mem hr (by simp)]
    omega
  have hother (q : Port) (hne : p ≠ q) : ((s.completeReq p r e).port q).reqs.length = (s.port q).reqs.length := by
    rw [completeReq_port_ne s hne]
  unfold openCount
  match p with
  | 0 => rw [hother 1 (by decide), hother 2 (by decide)]; omega
  | 1 => rw [hother 0 (by decide), hother 2 (by decide)]; omega
  | 2 => rw [hother 0 (by decide), hother 1 (by decide)]; omega

end State

theorem exec_arbiterDecision (hheld : s.held = false) (hmay : s.mayDecide g = true) :
    exec (.arbiterDecision g) s = .next (runDecision g (s.openCount + 1) s) := by
  refine congrArg Host.Outcome.next ((hubEvent_running hheld).trans ?_)
  simp [hmay]

/-- Settles O40: the renewed decision has one request less to repeat for, which is the fuel the first round used. -/
theorem holdLostDecidesAgain : Obligations.HoldLostDecidesAgain := by
  refine ⟨fun s g c a p r hheld hidle hpending hw hc hunder hholder => ?_, fun s g hnone => ?_⟩
  · have hmay : s.mayDecide g = true := by simp [mayDecide, hidle, hpending]
    have hlost : s.losesHold p r = true := by simp [losesHold, hunder, hholder]
    have hcount : ((s.setArbiter g a).completeReq p r { status := .holdLost }).openCount + 1 = s.openCount :=
      openCount_completeReq (s := s.setArbiter g a) (candidate_request_mem hc) _
    rw [exec_arbiterDecision hheld hmay, exec_arbiterDecision (s := (s.setArbiter g a).completeReq p r _) hheld hmay,
      hcount, runDecision_of_lost hw hc hlost]
  · refine congrArg Host.Outcome.next (hubEvent_eq_self ?_)
    obtain hstate | hpending | hw := hnone
    · simp [mayDecide, hstate]
    · simp [mayDecide, hpending]
    · simp [runDecision_of_no_winner hw]

end Sys2Proof.Machine
end

section
/-! PROOF. The hold table and the open HOLDs that wait: what keeps them sound, and the relation of a change that only
lets holds end, pass to waiters, and waiters leave (R53, R54). -/

namespace Sys2Proof.Machine

set_option Elab.async false

open State PortState

/-- The holder of an entry and then the ports that wait for it. -/
def HoldEntry.ports (e : HoldEntry) : List Port := e.holder :: e.waiters.map (·.port)

/-- The open HOLD `r` waits for a key by the waiter record `w` (R54). -/
structure StandsFor (k : Key) (w : Waiter) (r : Request) : Prop where
  tag : r.tag = w.tag
  state : r.state = .waitingHold
  kind : r.kind = .hold
  key : r.key = k
  limit : r.holdLimit.getD 1 = w.limit

namespace State

variable {s t u : State} {p q : Port} {i j : HoldIdx} {e x : HoldEntry} {w v : Waiter} {r : Request}

/-- The two invariants of the hold table (R53, R54). -/
structure HoldTableSound (s : State) : Prop where
  keys : HoldKeysUnique s
  ports : ∀ i e, s.hold i = some e → e.ports.Nodup
  holds : ∀ i e, s.hold i = some e → ∀ w ∈ e.waiters, ∃ r ∈ (s.port w.port).reqs, StandsFor e.key w r
  waiters : ∀ p, ∀ r ∈ (s.port p).reqs, r.state = .waitingHold →
    ∃ i e, s.hold i = some e ∧ e.key = r.key ∧ ∃ w ∈ e.waiters, w.port = p ∧ w.tag = r.tag

theorem HoldTableSound.of_invariants (hu : HoldKeysUnique s) (hw : WaitersSound s) : HoldTableSound s := by
  obtain ⟨hentries, hwaiting⟩ := hw
  refine ⟨hu, fun i e he => ?_, fun i e he w hw => ?_, hwaiting⟩
  · obtain ⟨hnodup, hholder, -⟩ := hentries i e he
    exact List.nodup_cons.mpr ⟨hholder, hnodup⟩
  · obtain ⟨-, -, hopen⟩ := hentries i e he
    obtain ⟨r, hr, htag, hstate, hkind, hkey, hlimit⟩ := hopen w hw
    exact ⟨r, hr, htag, hstate, hkind, hkey, hlimit⟩

theorem HoldTableSound.waitersSound (h : HoldTableSound s) : WaitersSound s := by
  refine ⟨fun i e he => ?_, h.waiters⟩
  obtain ⟨hholder, hnodup⟩ := List.nodup_cons.mp (h.ports i e he)
  refine ⟨hnodup, hholder, fun w hw => ?_⟩
  obtain ⟨r, hr, hstands⟩ := h.holds i e he w hw
  exact ⟨r, hr, hstands.tag, hstands.state, hstands.kind, hstands.key, hstands.limit⟩

/-- A port waits at most once for a key (R54). -/
theorem waiter_eq_of_port (hports : e.ports.Nodup) (hw : w ∈ e.waiters) (hv : v ∈ e.waiters)
    (hport : v.port = w.port) : v = w :=
  List.inj_on_of_nodup_map (List.nodup_cons.mp hports).2 hv hw hport

/-- One open HOLD waits for one key alone, by one waiter record (R53, R54). -/
theorem HoldTableSound.waiter_unique (h : HoldTableSound s) (hb : RequestBounds s) (he : s.hold i = some e)
    (hw : w ∈ e.waiters) (hr : r ∈ (s.port w.port).reqs) (hstands : StandsFor e.key w r) (hx : s.hold j = some x)
    (hv : v ∈ x.waiters) (hport : v.port = w.port) (htag : v.tag = r.tag) : j = i ∧ x = e ∧ v = w := by
  obtain ⟨y, hy, hother⟩ := h.holds j x hx v hv
  obtain rfl : y = r := (hb w.port).eq_of_tag (hport ▸ hy) hr (hother.tag.trans htag)
  obtain rfl : j = i := h.keys j i x e hx he (hother.key.symm.trans hstands.key)
  obtain rfl : x = e := Option.some.inj (hx.symm.trans he)
  exact ⟨rfl, rfl, waiter_eq_of_port (h.ports j x he) hw hv hport⟩

/-! ### Holds end, pass on, and waiters leave -/

/-- From `s` to `t` no hold was granted to a port that did not wait for it and no HOLD began to wait; a waiter has left
exactly if its HOLD is open no more. -/
structure Retires (s t : State) : Prop where
  entries : ∀ i x, t.hold i = some x →
    ∃ e, s.hold i = some e ∧ e.key = x.key ∧ x.waiters ⊆ e.waiters ∧ x.ports.Sublist e.ports
  waiting : ∀ p, ∀ r ∈ (t.port p).reqs, r.state = .waitingHold → r ∈ (s.port p).reqs
  waiters : ∀ i e w r, s.hold i = some e → w ∈ e.waiters → r ∈ (s.port w.port).reqs → StandsFor e.key w r →
    (r ∈ (t.port w.port).reqs ↔ ∃ x, t.hold i = some x ∧ w ∈ x.waiters)

theorem HoldTableSound.retires (h : HoldTableSound s) (hb : RequestBounds s) (k : Retires s t) : HoldTableSound t where
  keys i j a b ha hb hkey := by
    obtain ⟨e, he, hekey, -⟩ := k.entries i a ha
    obtain ⟨x, hx, hxkey, -⟩ := k.entries j b hb
    exact h.keys i j e x he hx (hekey.trans (hkey.trans hxkey.symm))
  ports i x hx := by
    obtain ⟨e, he, -, -, hports⟩ := k.entries i x hx
    exact (h.ports i e he).sublist hports
  holds i x hx w hw := by
    obtain ⟨e, he, hkey, hsub, -⟩ := k.entries i x hx
    obtain ⟨r, hr, hstands⟩ := h.holds i e he w (hsub hw)
    exact ⟨r, (k.waiters i e w r he (hsub hw) hr hstands).mpr ⟨x, hx, hw⟩, hkey ▸ hstands⟩
  waiters p r hr hstate := by
    have hbefore := k.waiting p r hr hstate
    obtain ⟨i, e, he, hkey, w, hw, rfl, htag⟩ := h.waiters _ r hbefore hstate
    obtain ⟨y, hy, hstands⟩ := h.holds i e he w hw
    obtain rfl : y = r := (hb w.port).eq_of_tag hy hbefore (hstands.tag.trans htag)
    obtain ⟨x, hx, hleft⟩ := (k.waiters i e w y he hw hbefore hstands).mp hr
    obtain ⟨e', he', hsame, -⟩ := k.entries i x hx
    cases he.symm.trans he'
    exact ⟨i, x, hx, hsame.symm.trans hkey, w, hleft, rfl, htag⟩

namespace Retires

/-- The holds stand, and so do the HOLDs that wait. -/
theorem of_waiting (hholds : ∀ i, t.hold i = s.hold i)
    (hreqs : ∀ p r, r.state = .waitingHold → (r ∈ (t.port p).reqs ↔ r ∈ (s.port p).reqs)) : Retires s t where
  entries i x hx := ⟨x, (hholds i).symm.trans hx, rfl, List.Subset.refl _, .refl _⟩
  waiting p r hr hstate := (hreqs p r hstate).mp hr
  waiters i e _ r he hw hr hstands :=
    iff_of_true ((hreqs _ r hstands.state).mpr hr) ⟨e, (hholds i).trans he, hw⟩

theorem of_reqs (hholds : ∀ i, t.hold i = s.hold i) (hreqs : ∀ p, (t.port p).reqs = (s.port p).reqs) : Retires s t :=
  of_waiting hholds fun p r _ => by rw [hreqs]

theorem refl (s : State) : Retires s s := of_reqs (fun _ => rfl) fun _ => rfl

theorem trans (h : Retires s t) (k : Retires t u) : Retires s u where
  entries i y hy := by
    obtain ⟨x, hx, hkey, hsub, hports⟩ := k.entries i y hy
    obtain ⟨e, he, hkey', hsub', hports'⟩ := h.entries i x hx
    exact ⟨e, he, hkey'.trans hkey, fun _ hw => hsub' (hsub hw), hports.trans hports'⟩
  waiting p r hr hstate := h.waiting p r (k.waiting p r hr hstate) hstate
  waiters i e w r he hw hr hstands := by
    have hfirst := h.waiters i e w r he hw hr hstands
    have hsecond {x : HoldEntry} (hx : t.hold i = some x) (hwx : w ∈ x.waiters) (hmem : r ∈ (t.port w.port).reqs) :
        r ∈ (u.port w.port).reqs ↔ ∃ y, u.hold i = some y ∧ w ∈ y.waiters := by
      obtain ⟨e', he', hkey, -⟩ := h.entries i x hx
      cases he.symm.trans he'
      exact k.waiters i x w r hx hwx hmem (hkey ▸ hstands)
    constructor
    · intro hafter
      have hmem := k.waiting _ r hafter hstands.state
      obtain ⟨x, hx, hwx⟩ := hfirst.mp hmem
      exact (hsecond hx hwx hmem).mp hafter
    · rintro ⟨y, hy, hwy⟩
      obtain ⟨x, hx, -, hsub, -⟩ := k.entries i y hy
      exact (hsecond hx (hsub hwy) (hfirst.mpr ⟨x, hx, hsub hwy⟩)).mpr ⟨y, hy, hwy⟩

theorem next (k : Retires s u) (e : (.next u : Host.Outcome State Fault Refusal) = .next t) : Retires s t := by
  cases e
  exact k

variable {l : List Part}

/-- A change of other blocks. -/
theorem of_keeps (k : Keeps s t l) (mp : .ports ∉ l := by decide) (mh : .holds ∉ l := by decide) : Retires s t :=
  of_reqs (fun i => k.hold i mh) fun p => congrArg PortState.reqs (k.port p mp)

theorem modifyPort {f : PortState → PortState}
    (h : ∀ r, r.state = .waitingHold → (r ∈ (f (s.port p)).reqs ↔ r ∈ (s.port p).reqs)) :
    Retires s (s.modifyPort p f) := by
  refine of_waiting (fun _ => rfl) fun q r hstate => ?_
  rw [modifyPort_port]
  split
  · next e => exact e ▸ h r hstate
  · rfl

/-- A change of a port beside its open requests. -/
theorem modifyPort_eq {f : PortState → PortState} (h : (f (s.port p)).reqs = (s.port p).reqs) :
    Retires s (s.modifyPort p f) := modifyPort fun r _ => by rw [h]

theorem mapPorts {f : Port → PortState → PortState} (h : ∀ p ps, (f p ps).reqs = ps.reqs) :
    Retires s (s.mapPorts f) :=
  of_reqs (fun _ => rfl) fun p => by rw [mapPorts_port, h]

/-- The remaining time of a hold changes. -/
theorem setHold_of_same (he : s.hold i = some e) (hkey : e.key = x.key) (hholder : x.holder = e.holder)
    (hwaiters : x.waiters = e.waiters) : Retires s (s.setHold i (some x)) where
  entries k y hy := by
    rw [setHold_hold] at hy
    split at hy
    · next hik =>
      cases hy
      exact ⟨e, hik ▸ he, hkey, by rw [hwaiters]; exact List.Subset.refl _, by
        rw [HoldEntry.ports, hholder, hwaiters]; exact .refl _⟩
    · exact ⟨y, hy, rfl, List.Subset.refl _, .refl _⟩
  waiting _ _ hr _ := hr
  waiters k y w r hy hw hr _ := by
    refine iff_of_true hr ?_
    rw [setHold_hold]
    split
    · next hik =>
      subst hik
      cases he.symm.trans hy
      exact ⟨x, rfl, hwaiters ▸ hw⟩
    · exact ⟨y, hy, hw⟩

end Retires

end State

end Sys2Proof.Machine
end

section
/-! PROOF. The operations that end holds, pass them on or take waiters away (R45, R57, R64, R67, R68, R94, R102). -/

namespace Sys2Proof.Machine

set_option Elab.async false

open State PortState

/-! ### What is left of an entry -/

namespace State

variable {e x : HoldEntry} {p : Port} {w : Waiter}

theorem handedOver_waiters (h : e.handedOver = some x) : x.waiters = e.waiters.tail := by
  unfold HoldEntry.handedOver at h
  split at h
  · next hw => cases h; rw [hw]; rfl
  · cases h

theorem handedOver_ports (h : e.handedOver = some x) : x.ports = e.ports.tail := by
  unfold HoldEntry.handedOver at h
  split at h
  · next hw => cases h; simp [HoldEntry.ports, hw]
  · cases h

/-- A waiter is left after a hand-over unless it was the first (R57). -/
theorem mem_handedOver (hports : e.ports.Nodup) (hw : w ∈ e.waiters) :
    (∃ x, e.handedOver = some x ∧ w ∈ x.waiters) ↔ e.waiters.head? ≠ some w := by
  have hnodup : e.waiters.Nodup := (List.nodup_cons.mp hports).2.of_map
  unfold HoldEntry.handedOver
  cases hws : e.waiters with
  | nil => simp [hws] at hw
  | cons v vs =>
    rw [hws] at hw hnodup
    obtain ⟨hv, -⟩ := List.nodup_cons.mp hnodup
    simp only [Option.some.injEq, exists_eq_left', List.head?_cons]
    rcases List.mem_cons.mp hw with rfl | hw
    · simp [hv]
    · simp [hw, ne_of_mem_of_not_mem hw hv |>.symm]

theorem ports_filter_sublist (e : HoldEntry) (sel : Waiter → Bool) :
    HoldEntry.ports { e with waiters := e.waiters.filter sel } |>.Sublist e.ports :=
  (List.filter_sublist.map _).cons_cons _

end State

/-! ### Requests that leave -/

namespace PortState

variable {ps : PortState} {x : Request}

/-- Open requests that complete one after another leave, and the others stand. -/
theorem mem_foldl_complete (f : Request → Ending) {l : List Request} : ∀ {ps : PortState}, PortBounds ps → l.Nodup →
    (∀ r ∈ l, r ∈ ps.reqs) → (x ∈ (l.foldl (fun ps r => ps.complete r (f r)) ps).reqs ↔ x ∈ ps.reqs ∧ x ∉ l) := by
  induction l with
  | nil => simp
  | cons r l ih =>
    intro ps hb hnodup hopen
    obtain ⟨hnew, hnodup⟩ := List.nodup_cons.mp hnodup
    have hr := hopen r List.mem_cons_self
    have hmem {y : Request} := mem_complete_reqs (x := y) hb hr (f r)
    rw [List.foldl_cons, ih (hb.complete hr _) hnodup fun y hy =>
      hmem.mpr ⟨hopen y (List.mem_cons_of_mem _ hy), ne_of_mem_of_not_mem hy hnew⟩, hmem, List.mem_cons]
    tauto

/-- The HOLDs of the served waiters leave (R68). -/
theorem mem_grantAll (hb : PortBounds ps) (served : List Waiter) :
    x ∈ (ps.grantAll served).reqs ↔ x ∈ ps.reqs ∧ ∀ w ∈ served, w.tag ≠ x.tag := by
  rw [grantAll_eq_granted, granted, mem_foldl_complete _ hb (hb.reqTags_nodup.of_map.filter _)
    fun r hr => List.mem_of_mem_filter hr]
  simp only [List.mem_filter, List.any_eq_true, beq_iff_eq]
  constructor
  · rintro ⟨hx, hnot⟩
    exact ⟨hx, fun w hw htag => hnot ⟨hx, w, hw, htag⟩⟩
  · rintro ⟨hx, hnot⟩
    exact ⟨hx, fun ⟨_, w, hw, htag⟩ => hnot w hw htag⟩

theorem find_of_mem (hb : PortBounds ps) (hx : x ∈ ps.reqs) : ps.find x.tag = some x := by
  obtain ⟨y, hy⟩ : ∃ y, ps.find x.tag = some y :=
    Option.isSome_iff_exists.mp (List.find?_isSome.mpr ⟨x, hx, beq_self_eq_true _⟩)
  rw [hy, hb.eq_of_tag (mem_of_find hy) hx (by simpa using List.find?_some hy)]

end PortState

namespace State

variable {s t : State} {p q : Port} {g : Seg} {i j : HoldIdx} {e x : HoldEntry} {w v : Waiter} {r y : Request}

theorem mem_completeReq (hb : RequestBounds s) (hr : r ∈ (s.port p).reqs) (e : Ending) :
    y ∈ ((s.completeReq p r e).port q).reqs ↔ y ∈ (s.port q).reqs ∧ (p = q → y ≠ r) := by
  by_cases hpq : p = q
  · subst hpq
    rw [completeReq_port_self, mem_complete_reqs (hb p) hr e]
    simp
  · simp [completeReq_port_ne s hpq, hpq]

/-! ### What a hand-over leaves (R57, R68) -/

/-- A hand-over of the entries that pass serves the request `y` of port `q`. -/
def Serves (s : State) (passes : HoldIdx → HoldEntry → Bool) (q : Port) (y : Request) : Prop :=
  ∃ i e w, s.hold i = some e ∧ passes i e = true ∧ e.waiters.head? = some w ∧ w.port = q ∧ w.tag = y.tag

theorem handOver_hold (s : State) (i j : HoldIdx) : (s.handOver i).hold j =
    (s.hold j).bind fun e => if j = i then e.handedOver else some e := by
  have hset (e : HoldEntry) (he : s.hold i = some e) : (s.setHold i e.handedOver).hold j =
      (s.hold j).bind fun e => if j = i then e.handedOver else some e := by
    rw [setHold_hold]
    by_cases hij : i = j
    · subst hij
      simp [he]
    · simp [hij, Ne.symm hij]
  cases he : s.hold i with
  | none =>
    rw [handOver_of_free he]
    by_cases hij : j = i
    · simp [hij, he]
    · simp [hij]
  | some e =>
    rw [← hset e he]
    simp only [State.handOver, he]
    split
    · rfl
    · split <;> rfl

theorem mem_handOver (h : HoldTableSound s) (hb : RequestBounds s) : y ∈ ((s.handOver i).port q).reqs ↔
    y ∈ (s.port q).reqs ∧ ¬s.Serves (fun j _ => j = i) q y := by
  cases he : s.hold i with
  | none => simp [handOver_of_free he, Serves, he]
  | some e =>
    cases hws : e.waiters with
    | nil => simp [handOver_of_no_waiter he hws, Serves, he, hws]
    | cons w ws =>
      obtain ⟨r, hr, hstands⟩ := h.holds i e he w (by simp [hws])
      have hfind : (s.port w.port).find w.tag = some r := hstands.tag ▸ find_of_mem (hb w.port) hr
      rw [handOver_of_waiter he hws hfind, mem_completeReq (hb.keeps (setHold_keeps ..)) hr]
      refine and_congr_right fun hy => ?_
      have hsame : w.port = q → (y = r ↔ w.tag = y.tag) := by
        rintro rfl
        exact ⟨fun h => h ▸ hstands.tag.symm, fun h => (hb w.port).eq_of_tag hy hr (h.symm.trans hstands.tag.symm)⟩
      simp only [Serves, decide_eq_true_eq, exists_and_left, ← not_and, not_iff_not]
      simpa [he, hws] using and_congr_right hsame

theorem mem_served : w ∈ s.served p ↔ ∃ i e, s.hold i = some e ∧ e.holder = p ∧ e.waiters.head? = some w := by
  simp only [served, List.mem_filterMap, mem_allHolds, true_and]
  refine exists_congr fun i => ?_
  cases he : s.hold i with
  | none => simp
  | some e => simp

theorem mem_handOverAll (hb : RequestBounds s) : y ∈ ((s.handOverAll p).port q).reqs ↔
    y ∈ (s.port q).reqs ∧ ¬s.Serves (fun _ e => e.holder = p) q y := by
  rw [handOverAll_port, mem_grantAll (hb q)]
  refine and_congr_right fun _ => ?_
  simp only [List.mem_filter, mem_served, decide_eq_true_eq, Serves]
  constructor
  · rintro hnone ⟨i, e, w, he, hp, hhead, hport, htag⟩
    exact hnone w ⟨⟨i, e, he, hp, hhead⟩, hport⟩ htag
  · rintro hnone w ⟨⟨i, e, he, hp, hhead⟩, hport⟩ htag
    exact hnone ⟨i, e, w, he, hp, hhead, hport, htag⟩

namespace Retires

/-! ### Requests that do not wait -/

/-- A request that is no waiter completes. -/
theorem completeReq (hb : RequestBounds s) (hr : r ∈ (s.port p).reqs) (hstate : r.state ≠ .waitingHold) (e : Ending) :
    Retires s (s.completeReq p r e) :=
  of_waiting (fun _ => rfl) fun q y hy => by
    rw [mem_completeReq hb hr]
    exact and_iff_left fun _ h => hstate (h ▸ hy)

/-- The head of a lane becomes IN_FLIGHT (R78). -/
theorem startHead (hb : RequestBounds s) (hr : (s.port p).readyHead g = some r) :
    Retires s (s.modifyPort p (·.setReqState r.tag .inFlight)) := by
  obtain ⟨hqueued, -⟩ := readyHead_some hr
  refine modifyPort fun y hy => ?_
  rw [mem_setReqState (hb p) hr]
  constructor
  · rintro (⟨hmem, -⟩ | rfl)
    · exact hmem
    · cases hy
  · exact fun hmem => .inl ⟨hmem, fun h => by simp [h, hqueued] at hy⟩

theorem addOpen (hqueued : r.state = .queued) : Retires s (s.addOpen p r) :=
  modifyPort fun y hy => by
    have hne : y ≠ r := fun h => by simp [h, hqueued] at hy
    simp [hne]

/-! ### Hand-overs (R57, R68) -/

/-- Entries are handed over, and the HOLDs of their first waiters complete. -/
theorem of_served (h : HoldTableSound s) (hb : RequestBounds s) {passes : HoldIdx → HoldEntry → Bool}
    (hholds : ∀ i, t.hold i = (s.hold i).bind fun e => if passes i e then e.handedOver else some e)
    (hreqs : ∀ q y, y ∈ (t.port q).reqs ↔ y ∈ (s.port q).reqs ∧ ¬s.Serves passes q y) : Retires s t where
  entries i x hx := by
    rw [hholds] at hx
    obtain ⟨e, he, hx⟩ := Option.bind_eq_some_iff.mp hx
    refine ⟨e, he, ?_⟩
    split at hx
    · refine ⟨(handedOver_key hx).symm, ?_, ?_⟩
      · rw [handedOver_waiters hx]
        exact List.tail_subset _
      · rw [handedOver_ports hx]
        exact List.tail_sublist _
    · cases hx
      exact ⟨rfl, List.Subset.refl _, .refl _⟩
  waiting p r hr _ := ((hreqs p r).mp hr).1
  waiters i e w r he hw hr hstands := by
    have hserves : s.Serves passes w.port r ↔ passes i e = true ∧ e.waiters.head? = some w := by
      constructor
      · rintro ⟨j, x, v, hx, hpass, hhead, hport, htag⟩
        obtain ⟨rfl, rfl, rfl⟩ :=
          h.waiter_unique hb he hw hr hstands hx (List.mem_of_head? hhead) hport htag
        exact ⟨hpass, hhead⟩
      · rintro ⟨hpass, hhead⟩
        exact ⟨i, e, w, he, hpass, hhead, rfl, hstands.tag.symm⟩
    rw [hreqs, hserves, hholds, he, Option.bind_some, and_iff_right hr]
    cases hpass : passes i e with
    | true => simpa using (mem_handedOver (h.ports i e he) hw).symm
    | false => simp [hw]

theorem handOver (h : HoldTableSound s) (hb : RequestBounds s) (i : HoldIdx) : Retires s (s.handOver i) :=
  of_served h hb (passes := fun j _ => j = i) (fun j => by simpa using handOver_hold s i j)
    fun q y => mem_handOver h hb

theorem expire (h : HoldTableSound s) (hb : RequestBounds s) (i : HoldIdx) : Retires s (s.expire i) := by
  cases he : s.hold i with
  | none =>
    rw [expire_of_free he]
    exact .refl s
  | some e =>
    have hend : Retires s (s.modifyPort e.holder (·.addHoldEnd ⟨e.key, .expired⟩)) := modifyPort_eq (addHoldEnd_reqs ..)
    rw [expire_of_used he]
    exact hend.trans (handOver (h.retires hb hend) (hb.addHoldEnd _ _) i)

theorem decreaseHold (h : HoldTableSound s) (hb : RequestBounds s) (i : HoldIdx) : Retires s (s.decreaseHold i) := by
  cases he : s.hold i with
  | none =>
    rw [decreaseHold_of_free he]
    exact .refl s
  | some e =>
    by_cases hmore : 1 < e.remaining
    · rw [decreaseHold_of_more he hmore]
      exact setHold_of_same he rfl rfl rfl
    · rw [decreaseHold_of_last he (Nat.le_of_not_lt hmore)]
      exact expire h hb i

theorem handOverAll (h : HoldTableSound s) (hb : RequestBounds s) (p : Port) : Retires s (s.handOverAll p) :=
  of_served h hb (passes := fun _ e => e.holder = p) (fun i => by simpa using handOverAll_hold s p i)
    fun q y => mem_handOverAll hb

/-! ### Waiters that leave with their HOLDs (R29, R45, R49) -/

/-- Waiters leave every entry, and exactly their HOLDs complete. -/
theorem of_filter {stays : Waiter → Bool}
    (hholds : ∀ i, t.hold i = (s.hold i).map fun e => { e with waiters := e.waiters.filter stays })
    (hsub : ∀ p, (t.port p).reqs ⊆ (s.port p).reqs)
    (hreqs : ∀ w r, r ∈ (s.port w.port).reqs → r.tag = w.tag → r.state = .waitingHold →
      (r ∈ (t.port w.port).reqs ↔ stays w = true)) : Retires s t where
  entries i x hx := by
    rw [hholds] at hx
    obtain ⟨e, he, rfl⟩ := Option.map_eq_some_iff.mp hx
    exact ⟨e, he, rfl, List.filter_subset_self .., ports_filter_sublist e stays⟩
  waiting p r hr _ := hsub p hr
  waiters i e w r he hw hr hstands := by
    rw [hreqs w r hr hstands.tag hstands.state, hholds, he]
    simp [hw]

/-- A waiting HOLD is cancelled (R45). -/
theorem cancelWaiting (hb : RequestBounds s) (hr : r ∈ (s.port p).reqs) (e : Ending) :
    Retires s ((s.dropWaiters p (· == r.tag)).completeReq p r e) := by
  have hmem {q : Port} {y : Request} := mem_completeReq (s := s.dropWaiters p (· == r.tag)) (q := q) (y := y)
    (hb.keeps (dropWaiters_keeps ..)) hr e
  refine of_filter (stays := fun w => !(w.port == p && w.tag == r.tag)) (fun i => mapHolds_hold ..)
    (fun q y hy => (hmem.mp hy).1) fun w y hy htag _ => ?_
  rw [hmem]
  simp only [dropWaiters, mapHolds_port, hy, true_and, Bool.not_eq_true', Bool.and_eq_false_iff, beq_eq_false_iff_ne]
  rw [← htag, ← not_and_or, eq_comm (a := w.port), ← not_and, not_iff_not]
  refine and_congr_right ?_
  rintro rfl
  exact ⟨fun h => h ▸ rfl, (hb w.port).eq_of_tag hy hr⟩

theorem cancelReq (hb : RequestBounds s) (p : Port) (tag : Byte) : Retires s (s.cancelReq p tag).1 := by
  unfold State.cancelReq
  split
  · exact .refl s
  · next r hfind =>
    have hr := mem_of_find hfind
    obtain rfl : r.tag = tag := by simpa using List.find?_some hfind
    split
    · next hs => exact .completeReq hb hr (by simp [hs]) _
    · exact .cancelWaiting hb hr _
    · exact .refl s

/-- The sweep takes the waiters whose HOLDs it completes (R29). -/
theorem sweep (hb : RequestBounds s) (i : RouteIdx) : Retires s (s.sweep i) := by
  refine of_filter (sweep_hold s i) (fun p => ?_) fun w r hr htag hstate => ?_
  · rw [sweep_port, completeAll_reqs]
    exact List.filter_subset_self ..
  · have hswept : s.sweepsWaiter i w = swept i r := by
      rw [Bool.eq_iff_iff, sweepsWaiter, List.any_eq_true]
      simp only [Bool.and_eq_true, beq_iff_eq]
      constructor
      · rintro ⟨y, hy, ⟨hswept, -⟩, hytag⟩
        rwa [(hb w.port).eq_of_tag hr hy (htag.trans hytag.symm)]
      · exact fun hswept => ⟨r, hr, ⟨hswept, hstate⟩, htag⟩
    rw [sweep_port, completeAll_reqs, List.mem_filter, hswept, and_iff_right hr]

/-- A port's requests are gone, and it waits nowhere (R49, R68). -/
theorem portLeaves (hholds : ∀ i, t.hold i = (s.hold i).map (withoutPort · p)) (hself : (t.port p).reqs = [])
    (hother : ∀ q, q ≠ p → (t.port q).reqs = (s.port q).reqs) : Retires s t := by
  refine of_filter (stays := fun w => w.port != p) hholds (fun q => ?_) fun w r hr _ _ => ?_
  · by_cases hq : q = p
    · simp [hq, hself]
    · rw [hother q hq]
      exact List.Subset.refl _
  · by_cases hq : w.port = p
    · simp [hq, hself]
    · simp [hother _ hq, hr, hq]

/-! ### A segment goes offline (R52, R67, R102) -/

/-- The holds of the segment end, and the HOLDs that wait for them complete with the others of its lanes. -/
theorem offline (o : OfflineEffects s t g) : Retires s t where
  entries i x hx := by
    rw [o.holds, Option.filter_eq_some_iff] at hx
    exact ⟨x, hx.1, rfl, List.Subset.refl _, .refl _⟩
  waiting p r hr _ := by
    rw [(o.requests p).reqs] at hr
    exact List.mem_of_mem_filter hr
  waiters i e w r he hw hr hstands := by
    rw [(o.requests _).reqs, o.holds, he]
    simp [hr, hw, hstands.state, hstands.key, Option.filter]

end Retires

end State

end Sys2Proof.Machine
end

section
/-! PROOF. The hold table under settlements, the engines and the arbiter (R55, R56, R62, R78, R94 to R104), and under
the two resets (R160, R164). -/

namespace Sys2Proof.Machine

set_option Elab.async false

open State PortState

namespace State

variable {s t : State} {p q : Port} {g : Seg} {i j : HoldIdx} {e x : HoldEntry} {w v : Waiter} {r y : Request}

namespace Retires

/-! ### Polls and semaphores touch no request -/

theorem completePoll (s : State) (n : PollIdx) (st : Status) (data : List Byte) :
    Retires s (s.completePoll n st data) := by
  have htold (x : BitVec 3) : Retires s (s.tellPoll n x) := mapPorts fun q ps => by
    split
    · exact addNotices_reqs ..
    · rfl
  unfold State.completePoll
  dsimp only
  split
  · exact of_keeps (setPoll_keeps ..)
  · refine trans ?_ (of_keeps (setPoll_keeps ..))
    split
    · exact htold _
    · exact .refl s

theorem freeSem (s : State) (n : SemIdx) : Retires s (s.freeSem n) :=
  of_reqs (freeSem_keeps s n).hold fun p => by
    rw [freeSem_port]
    split
    · exact addNotices_reqs ..
    · rfl

theorem freeOwned (s : State) (p : Port) : Retires s (s.freeOwned p) := by
  refine List.foldlRecOn (motive := Retires s) allSems _ (.refl s) fun t ht n _ => ?_
  split
  · exact ht.trans (freeSem t n)
  · exact ht

theorem segmentNotice (s : State) (g : Seg) : Retires s (s.segmentNotice g) := mapPorts fun _ _ => addNotices_reqs ..

/-! ### Engines (R94 to R104) -/

theorem setEngineState (s : State) (g : Seg) (st : EngineState) : Retires s (s.setEngineState g st) :=
  of_keeps (setEngineState_keeps ..)

theorem enterDisabled (s : State) (g : Seg) : Retires s (s.enterDisabled g) := offline (enterDisabled_effects s g)

theorem enterFaulted (s : State) (g : Seg) (reason : FaultReason) : Retires s (s.enterFaulted g reason) :=
  offline (enterFaulted_effects s g reason)

theorem tryRecovery (s : State) (g : Seg) : Retires s (s.tryRecovery g) := by
  unfold State.tryRecovery
  dsimp only
  split
  · exact of_keeps (setEngine_keeps ..)
  · exact enterFaulted s g _

theorem leaveTo (s : State) (g : Seg) (next : EngineState) : Retires s (s.leaveTo g next) := by
  unfold State.leaveTo
  split
  · exact enterDisabled s g
  · exact setEngineState s g next

theorem afterPulse (s : State) (g : Seg) (n : Nat) (hub sda : Bool) : Retires s (s.afterPulse g n hub sda) := by
  unfold State.afterPulse
  split
  · exact setEngineState s g _
  · split
    · exact setEngineState s g _
    · split
      · exact setEngineState s g _
      · exact enterFaulted s g _

theorem handOutcome (hb : RequestBounds s) (g : Seg) (c : Carrier) (e : Ending) :
    Retires s (s.handOutcome g c e) := by
  unfold State.handOutcome
  split
  · next p =>
    split
    · next r hr =>
      have hflight : r.state = .inFlight ∧ r.key.seg = g := by simpa using List.find?_some hr
      exact completeReq hb (inFlightReq_mem hr) (by simp [hflight.1]) e
    · exact .refl s
  · exact completePoll ..
  · exact .refl s

/-- The end of a transaction is counted, and its outcome handed over (R94, R108). -/
theorem count_handOutcome (hb : RequestBounds s) (g : Seg) (f : Stats → Stats) (c : Carrier) (e : Ending) :
    Retires s ((s.count g f).handOutcome g c e) :=
  (of_keeps (count_keeps ..)).trans (handOutcome (hb.keeps (count_keeps ..)) g c e)

theorem endTransaction (hb : RequestBounds s) (g : Seg) (x : Transaction) (e : Ending) :
    Retires s (s.endTransaction g x e) := by
  have hcount : Keeps s ((s.count g (countEnd e.status)).clearTries g) [.engines] :=
    (count_keeps ..).trans (setEngine_keeps ..)
  exact ((of_keeps hcount).trans (handOutcome (hb.keeps hcount) g _ e)).trans (leaveTo ..)

theorem conflict (hb : RequestBounds s) (g : Seg) (x : Transaction) (acks : List Bool) :
    Retires s (s.conflict g x acks) := (count_handOutcome hb ..).trans (leaveTo ..)

theorem expireLimit (hb : RequestBounds s) (g : Seg) (x : Transaction) (acks : List Bool) :
    Retires s (s.expireLimit g x acks) := by
  unfold State.expireLimit
  dsimp only
  split
  · exact (count_handOutcome hb ..).trans (enterDisabled ..)
  · exact (count_handOutcome hb ..).trans (tryRecovery ..)

theorem segmentDisable (s : State) (g : Seg) : Retires s (s.segmentDisable g).state := by
  unfold State.segmentDisable
  split
  · exact .refl s
  iterate 4
    · exact enterDisabled s g
  iterate 3
    · exact of_keeps (setEngine_keeps ..)

theorem segmentRestore (s : State) (g : Seg) : Retires s (s.segmentRestore g).state := by
  unfold State.segmentRestore
  split
  · exact (of_keeps (setEngine_keeps ..)).trans (segmentNotice _ g)
  · exact .refl s

/-! ### Decisions and RELEASEs (R56, R62, R78) -/

theorem grant (hb : RequestBounds s) {c : Candidate}
    (hc : ∀ p r, c = .request p r → s.portCandidate g p = some r) : Retires s (s.grant g c) := by
  cases c with
  | request p r =>
    obtain ⟨hr, -⟩ := portCandidate_iff.mp (hc p r rfl)
    exact (startHead hb hr).trans (of_keeps (setEngine_keeps ..))
  | poll n => exact of_keeps (((setDue_keeps ..).mono.trans (setPoll_keeps ..).mono).trans
      (setEngine_keeps ..).mono (l := [.due, .polls, .engines]))

theorem runDecision (g : Seg) (fuel : Nat) : ∀ {s : State}, RequestBounds s →
    Retires s (State.runDecision g fuel s) := by
  induction fuel with
  | zero => intro s _; exact .refl s
  | succ fuel ih =>
    intro s hb
    have harbiter (a : Arbiter) : Retires s (s.setArbiter g a) := of_keeps (setArbiter_keeps ..)
    have hbounds (a : Arbiter) : RequestBounds (s.setArbiter g a) := hb.keeps (setArbiter_keeps ..)
    unfold State.runDecision
    split
    · exact .refl s
    · split
      · exact .refl s
      · next hc =>
        have hport := candidate_request hc
        split
        · obtain ⟨hready, -⟩ := portCandidate_iff.mp hport
          obtain ⟨hqueued, -⟩ := readyHead_some hready
          have hmem := readyHead_mem hready
          exact ((harbiter _).trans (completeReq (hbounds _) hmem (by simp [hqueued]) _)).trans
            (ih ((hbounds _).completeReq hmem _))
        · exact (harbiter _).trans (grant (hbounds _) fun p r e => by cases e; exact hport)
      · exact (harbiter _).trans (grant (hbounds _) nofun)

theorem settleRelease (h : HoldTableSound s) (hb : RequestBounds s) (hr : (s.port p).readyHead g = some r) :
    Retires s (s.settleRelease p r) := by
  obtain ⟨hqueued, -⟩ := readyHead_some hr
  have hmem := readyHead_mem hr
  have hnot : r.state ≠ .waitingHold := by simp [hqueued]
  unfold State.settleRelease
  split
  · next i _ =>
    split
    · next hholder =>
      obtain ⟨e, he, rfl⟩ := Option.map_eq_some_iff.mp hholder
      exact (handOver h hb i).trans
        (completeReq (hb.handOver i) ((handOver_port_holder h.waitersSound he).symm ▸ hmem) hnot _)
    · exact completeReq hb hmem hnot _
  · exact completeReq hb hmem hnot _

/-! ### Resets (R160, R164) -/

theorem resetPort (h : HoldTableSound s) (hb : RequestBounds s) (p : Port) : Retires s (s.resetPort p) := by
  have hcleared : RequestBounds (s.modifyPort p clearedPort) := hb.modifyPort fun _ => .of_empty rfl rfl
  have hcut := (hcleared.keeps (mapEngines_keeps _ (Engine.cutPort p s.freeCount))).keeps (draw_keeps _)
  have hbounds := hcut.keeps (dropWaiters_keeps _ p fun _ => true)
  have hleaves : Retires s (((s.modifyPort p clearedPort).mapEngines
      (Engine.cutPort p s.freeCount)).draw.dropWaiters p fun _ => true) :=
    portLeaves (p := p) (fun i => dropWaiters_all_hold ..) (congrArg PortState.reqs (modifyPort_port_self ..))
      fun q hq => congrArg PortState.reqs (modifyPort_port_ne s hq.symm _)
  have hserved := hleaves.trans (handOverAll (h.retires hb hleaves) hbounds p)
  rw [resetPort_eq]
  exact ((hserved.trans (of_keeps (mapArbiters_keeps ..))).trans (of_keeps (dropInterest_keeps ..))).trans
    (freeOwned _ p)

/-- Where nothing is open and nothing held, nothing waits. -/
theorem of_empty (hholds : ∀ i, t.hold i = none) (hreqs : ∀ p, (t.port p).reqs = []) : Retires s t where
  entries i x hx := by simp [hholds] at hx
  waiting p r hr := by simp [hreqs] at hr
  waiters := by simp [hholds, hreqs]

theorem hubReset (s : State) : Retires s s.hubReset :=
  have o := hubReset_effects s
  of_empty o.holds fun p => congrArg PortState.reqs (o.ports p)

end Retires

/-! ### The settlement of a HOLD (R55) -/

theorem setHold_some (hx : (s.setHold i (some e)).hold j = some x) : i = j ∧ x = e ∨ i ≠ j ∧ s.hold j = some x := by
  rw [setHold_hold] at hx
  split at hx
  · next hij => exact .inl ⟨hij, (Option.some.inj hx).symm⟩
  · next hij => exact .inr ⟨hij, hx⟩

/-- A port gets a hold on a key that no port holds. -/
theorem HoldTableSound.grantHold (h : HoldTableSound s) {k : Key} (hfree : ∀ i e, s.hold i = some e → e.key ≠ k)
    (hi : s.hold i = none) (p : Port) (limit : Nat) :
    HoldTableSound (s.setHold i (some ⟨k, p, limit, []⟩)) where
  keys a b x y hx hy hkey := by
    rcases setHold_some hx with ⟨rfl, rfl⟩ | ⟨-, hx⟩ <;> rcases setHold_some hy with ⟨rfl, rfl⟩ | ⟨-, hy⟩
    · rfl
    · exact absurd hkey.symm (hfree b y hy)
    · exact absurd hkey (hfree a x hx)
    · exact h.keys a b x y hx hy hkey
  ports j x hx := by
    rcases setHold_some hx with ⟨-, rfl⟩ | ⟨-, hx⟩
    · exact List.nodup_singleton p
    · exact h.ports j x hx
  holds j x hx w hw := by
    rcases setHold_some hx with ⟨-, rfl⟩ | ⟨-, hx⟩
    · cases hw
    · exact h.holds j x hx w hw
  waiters q r hr hstate := by
    obtain ⟨j, x, hx, hrest⟩ := h.waiters q r hr hstate
    refine ⟨j, x, ?_, hrest⟩
    rw [setHold_hold, if_neg fun hij => by simp [← hij, hi] at hx]
    exact hx

/-- An entry whose waiters the HOLD `r` of port `p` has joined at the end (R54). -/
def joinedBy (e : HoldEntry) (p : Port) (r : Request) : HoldEntry :=
  { e with waiters := e.waiters ++ [⟨p, r.tag, r.holdLimit.getD 1⟩] }

/-- The HOLD `r` of port `p` waits for entry `i` (R55). -/
def joins (s : State) (i : HoldIdx) (e : HoldEntry) (p : Port) (r : Request) : State :=
  (s.setHold i (some (joinedBy e p r))).modifyPort p (·.setReqState r.tag .waitingHold)

theorem joins_hold_self (s : State) (i : HoldIdx) (e : HoldEntry) (p : Port) (r : Request) :
    (s.joins i e p r).hold i = some (joinedBy e p r) := setHold_hold_self ..

theorem joins_hold_ne (hij : i ≠ j) (e : HoldEntry) (p : Port) (r : Request) : (s.joins i e p r).hold j = s.hold j :=
  setHold_hold_ne _ hij _

/-- The HOLD joins the waiting ones, and the others go on waiting. -/
theorem mem_joins (hb : RequestBounds s) (hr : (s.port p).readyHead g = some r) (hy : y.state = .waitingHold) :
    y ∈ ((s.joins i e p r).port q).reqs ↔
      y ∈ (s.port q).reqs ∨ p = q ∧ y = { r with state := .waitingHold } := by
  obtain ⟨hqueued, -⟩ := readyHead_some hr
  have hne : y ≠ r := fun h => by simp [h, hqueued] at hy
  rw [joins, modifyPort_port]
  split
  · next hpq =>
    subst hpq
    exact (mem_setReqState (hb p) hr _).trans (by simp [hne])
  · next hpq => simp [hpq]

/-- A port whose HOLD heads its lane waits for no key of that segment yet (R38). -/
theorem HoldTableSound.head_waits_not (h : HoldTableSound s) (hb : RequestBounds s) (hl : LanesSound s)
    (hr : (s.port p).readyHead g = some r) (he : s.hold i = some e) (hkey : e.key = r.key) (hw : w ∈ e.waiters) :
    w.port ≠ p := by
  rintro rfl
  obtain ⟨hqueued, hg, -⟩ := readyHead_some hr
  obtain ⟨y, hy, hstands⟩ := h.holds i e he w hw
  obtain ⟨⟨rest, hlane, -⟩, -⟩ := lane_setReqState (hb w.port) hr .queued
  have hmem : y ∈ (s.port w.port).lane g := mem_lane.mpr ⟨hy, by rw [hstands.key, hkey, hg]⟩
  have hnot : y.state ≠ .queued := by simp [hstands.state]
  rw [hlane] at hmem
  rcases List.mem_cons.mp hmem with rfl | hrest
  · exact hnot hqueued
  · exact hnot (hl w.port g y (by rw [hlane]; exact hrest))

theorem HoldTableSound.joinedBy_ports (h : HoldTableSound s) (hb : RequestBounds s) (hl : LanesSound s)
    (hr : (s.port p).readyHead g = some r) (he : s.hold i = some e) (hkey : e.key = r.key) (hp : e.holder ≠ p) :
    (joinedBy e p r).ports.Nodup := by
  have hnew : p ∉ e.ports := by
    rw [HoldEntry.ports, List.mem_cons, List.mem_map]
    rintro (rfl | ⟨w, hw, hport⟩)
    · exact hp rfl
    · exact h.head_waits_not hb hl hr he hkey hw hport
  have hports : (joinedBy e p r).ports = e.ports ++ [p] := by simp [joinedBy, HoldEntry.ports]
  rw [hports, List.nodup_append_comm]
  exact List.nodup_cons.mpr ⟨hnew, h.ports i e he⟩

/-- The HOLD at the head of a lane joins the end of the waiters of its key (R54, R55). -/
theorem HoldTableSound.joins (h : HoldTableSound s) (hb : RequestBounds s) (hl : LanesSound s)
    (hr : (s.port p).readyHead g = some r) (hk : r.kind = .hold) (he : s.hold i = some e) (hkey : e.key = r.key)
    (hp : e.holder ≠ p) : HoldTableSound (s.joins i e p r) where
  keys a b x y hx hy hxy := by
    rcases setHold_some hx with ⟨rfl, rfl⟩ | ⟨-, hx⟩ <;> rcases setHold_some hy with ⟨rfl, rfl⟩ | ⟨-, hy⟩
    · rfl
    · exact h.keys i b e y he hy hxy
    · exact h.keys a i x e hx he hxy
    · exact h.keys a b x y hx hy hxy
  ports j x hx := by
    rcases setHold_some hx with ⟨-, rfl⟩ | ⟨-, hx⟩
    · exact h.joinedBy_ports hb hl hr he hkey hp
    · exact h.ports j x hx
  holds j x hx w hw := by
    have hstill {j : HoldIdx} {x : HoldEntry} (hx : s.hold j = some x) (hw : w ∈ x.waiters) :
        ∃ y ∈ ((s.joins i e p r).port w.port).reqs, StandsFor x.key w y := by
      obtain ⟨y, hy, hstands⟩ := h.holds j x hx w hw
      exact ⟨y, (mem_joins hb hr hstands.state).mpr (.inl hy), hstands⟩
    rcases setHold_some hx with ⟨-, rfl⟩ | ⟨-, hx⟩
    · rcases List.mem_append.mp hw with hw | hw
      · obtain ⟨y, hy, hstands⟩ := hstill he hw
        exact ⟨y, hy, hstands⟩
      · cases List.mem_singleton.mp hw
        exact ⟨_, (mem_joins hb hr rfl).mpr (.inr ⟨rfl, rfl⟩), rfl, rfl, hk, hkey.symm, rfl⟩
    · exact hstill hx hw
  waiters q y hy hstate := by
    rcases (mem_joins hb hr hstate).mp hy with hy | ⟨rfl, rfl⟩
    · obtain ⟨j, x, hx, hxkey, w, hw, hport, htag⟩ := h.waiters q y hy hstate
      by_cases hij : i = j
      · subst hij
        cases he.symm.trans hx
        exact ⟨i, _, joins_hold_self .., hxkey, w, List.mem_append_left _ hw, hport, htag⟩
      · exact ⟨j, x, (joins_hold_ne hij ..).trans hx, hxkey, w, hw, hport, htag⟩
    · exact ⟨i, _, joins_hold_self .., hkey, _, List.mem_append_right _ (List.mem_singleton_self _), rfl, rfl⟩

theorem HoldTableSound.settleHold (h : HoldTableSound s) (hb : RequestBounds s) (hl : LanesSound s)
    (hr : (s.port p).readyHead g = some r) (hk : r.kind = .hold) : HoldTableSound (s.settleHold p r) := by
  obtain ⟨hqueued, -⟩ := readyHead_some hr
  have hmem := readyHead_mem hr
  have hnot : r.state ≠ .waitingHold := by simp [hqueued]
  cases hi : s.entryOf r.key with
  | some i =>
    obtain ⟨e, he, hkey⟩ := entryOf_some hi
    by_cases hp : e.holder = p
    · rw [settleHold_own hi he hp]
      exact h.retires hb (.completeReq hb hmem hnot _)
    · rw [settleHold_waits hi he hp]
      exact h.joins hb hl hr hk he hkey hp
  | none =>
    have hfree : ∀ i e, s.hold i = some e → e.key ≠ r.key := holderOf_eq_none.mp (by simp [holderOf, hi])
    cases hf : s.freeEntry with
    | some i =>
      have hunused : s.hold i = none := by simpa using List.find?_some hf
      have hbounds : RequestBounds (s.setHold i (some ⟨r.key, p, r.holdLimit.getD 1, []⟩)) := hb.keeps (setHold_keeps ..)
      rw [settleHold_granted hfree hf]
      exact (h.grantHold hfree hunused p _).retires hbounds (.completeReq hbounds hmem hnot _)
    | none =>
      rw [settleHold_full hfree hf]
      exact h.retires hb (.completeReq hb hmem hnot _)

end State

end Sys2Proof.Machine
end

section
/-! PROOF. The hold table under every command and every step (R53, R54). -/

namespace Sys2Proof.Machine

set_option Elab.async false

open State PortState

namespace State

variable {s t : State} {p : Port}

namespace Retires

/-! ### Frames and events -/

theorem noFrame (s : State) (p : Port) : Retires s (s.noFrame p) := modifyPort_eq rfl

theorem takeFrame {k : Option FrameKind} {n : Nat} {act : State → Answer}
    (hact : Retires (s.noFrame p) (act (s.noFrame p)).state) : Retires s (Machine.takeFrame p k n act s) := by
  unfold Machine.takeFrame
  split
  · exact ((noFrame s p).trans hact).trans (modifyPort_eq rfl)
  · exact .refl s

theorem frameOf {k : FrameKind} {act : State → Answer} (hact : ∀ s, Retires s (act s).state) :
    Retires s (Machine.frameOf p k act s) := takeFrame (hact _)

theorem claimedFrame {n : Nat} {b : Byte} {k : FrameKind} {act : State → Fin n → Answer}
    (hact : ∀ i, Retires (s.noFrame p) (act (s.noFrame p) i).state) : Retires s (Machine.claimedFrame p k b act s) := by
  unfold Machine.claimedFrame Machine.frameOf
  refine takeFrame ?_
  unfold withClaim withIndex
  split
  · split
    · exact hact _
    · exact .refl _
  · exact .refl _

theorem frameEnd {k : FrameKind} {act : Snapshot → State → State}
    (hact : ∀ x, Retires (s.noFrame p) (act x (s.noFrame p))) : Retires s (Machine.frameEnd p k act s) := by
  unfold Machine.frameEnd
  split
  · split
    · exact (noFrame s p).trans (hact _)
    · exact .refl s
  · exact .refl s

theorem hubEvent {act : State → State} (hact : Retires s (act s)) : Retires s (Machine.hubEvent act s) := by
  unfold Machine.hubEvent
  split
  · exact .refl s
  · exact hact

/-! ### The blocks of the commands -/

theorem becomeDue (s : State) (n : PollIdx) : Retires s (s.becomeDue n) := by
  unfold State.becomeDue
  dsimp only
  split
  · exact of_keeps (setPoll_keeps ..)
  · split
    · exact (of_keeps (setPoll_keeps ..)).trans (completePoll ..)
    · exact (of_keeps (setPoll_keeps ..)).trans (of_keeps (setDue_keeps ..))

theorem countdown (s : State) (n : PollIdx) : Retires s (s.countdown n) := by
  unfold State.countdown
  dsimp only
  split
  · split
    · exact of_keeps (setPoll_keeps ..)
    · exact becomeDue s n
  · exact .refl s

theorem undue_setPoll (s : State) (n : PollIdx) (x : PollEntry) : Retires s ((s.undue n).setPoll n x) :=
  (of_keeps (undue_keeps ..)).trans (of_keeps (setPoll_keeps ..))

theorem pollSet (s : State) (n : PollIdx) (f : PollFields) : Retires s (s.pollSet n f).state := by
  unfold State.pollSet
  split
  · exact .refl s
  · split
    · exact undue_setPoll ..
    · exact .refl s

theorem pollStart (s : State) (n : PollIdx) : Retires s (s.pollStart n).state := by
  unfold State.pollStart
  dsimp only
  split
  · dsimp only
    split
    · exact .refl s
    · exact of_keeps (setPoll_keeps ..)
  · exact .refl s

theorem segmentSet (s : State) (g : Seg) (f : SegmentFields) : Retires s (s.segmentSet g f).state := by
  unfold State.segmentSet
  split
  · exact .refl s
  · exact (of_keeps (setEngine_keeps ..)).trans (of_keeps (setArbiter_keeps ..))

theorem semGive (s : State) (p : Port) (i : SemIdx) : Retires s (s.semGive p i).1 := by
  unfold State.semGive
  split
  · exact freeSem s i
  · exact .refl s

theorem semBreak (s : State) (i : SemIdx) : Retires s (s.semBreak i).1 := by
  unfold State.semBreak
  split
  · dsimp only
    exact (freeSem s i).trans (modifyPort_eq (addNotices_reqs ..))
  · exact .refl s

theorem routeSet (hb : RequestBounds s) (i : RouteIdx) (f : RouteFields) : Retires s (s.routeSet i f).state := by
  have hset (e : RouteEntry) : Retires s (s.setRoute i e) := of_keeps (setRoute_keeps ..)
  unfold State.routeSet
  split
  · exact .refl s
  · split
    · exact .refl s
    · split
      · exact (hset _).trans (sweep (hb.keeps (setRoute_keeps ..)) i)
      · exact hset _

theorem routeClear (hb : RequestBounds s) (i : RouteIdx) : Retires s (s.routeClear i).state := by
  unfold State.routeClear
  split
  · exact (of_keeps (setRoute_keeps ..)).trans (sweep (hb.keeps (setRoute_keeps ..)) i)
  · exact .refl s

theorem fetchRemoval (p : Port) (x : Snapshot) (s : State) : Retires s (Machine.fetchRemoval p x s) := by
  unfold Machine.fetchRemoval
  split
  · refine modifyPort_eq ?_
    split <;> rfl
  · exact .refl s

theorem postedFaultRemoval (p : Port) (x : Snapshot) (s : State) : Retires s (Machine.postedFaultRemoval p x s) := by
  unfold Machine.postedFaultRemoval
  split
  · exact modifyPort_eq rfl
  · exact .refl s

theorem holdEndsRemoval (p : Port) (x : Snapshot) (s : State) : Retires s (Machine.holdEndsRemoval p x s) := by
  unfold Machine.holdEndsRemoval
  split
  · exact modifyPort_eq rfl
  · exact .refl s

theorem noticesRemoval (p : Port) (x : Snapshot) (s : State) : Retires s (Machine.noticesRemoval p x s) := by
  unfold Machine.noticesRemoval
  split
  · exact modifyPort_eq rfl
  · exact .refl s

theorem setPrst (s : State) (p : Port) (low : Bool) : Retires s (s.setPrst p low) := modifyPort_eq rfl

/-- What an idle hub does touches no request and no hold (log 1). -/
theorem idle (s : State) : Retires s s.idle := by
  unfold State.idle
  split
  · exact .refl s
  · split
    · exact (of_keeps (countMark_keeps s)).trans (of_keeps (enqueue_keeps ..))
    · exact of_keeps (enqueue_keeps ..)

end Retires

/-! ### The commands -/

/-- Of the commands that leave lanes and engines alone, the sweeps alone take waiters away. -/
theorem exec_retires_of_calm (hb : RequestBounds s) {c : Instr} (hc : stirs c = false) (e : exec c s = .next t) :
    Retires s t := by
  cases c with
  | laneInspect | hubInfo | portReset | holdEnds | notices => exact (Retires.frameOf .refl).next e
  | fetch | postedFault =>
    refine (Retires.frameOf fun s => ?_).next e
    split <;> exact .refl s
  | causes p clear =>
    refine (Retires.frameOf fun s => ?_).next e
    dsimp only
    split
    · exact .modifyPort_eq rfl
    · exact .refl s
  | causeMask p mask =>
    refine (Retires.frameOf fun s => ?_).next e
    dsimp only
    exact .modifyPort_eq rfl
  | fetchNormalEnd p => exact (Retires.frameEnd fun x => .fetchRemoval p x _).next e
  | postedFaultNormalEnd p => exact (Retires.frameEnd fun x => .postedFaultRemoval p x _).next e
  | holdEndsNormalEnd p => exact (Retires.frameEnd fun x => .holdEndsRemoval p x _).next e
  | noticesNormalEnd p => exact (Retires.frameEnd fun x => .noticesRemoval p x _).next e
  | semTake p n =>
    refine (Retires.frameOf fun s => ?_).next e
    split
    · exact .refl s
    · exact .of_keeps (semTake_keeps ..)
  | semGive p n =>
    refine (Retires.frameOf fun s => ?_).next e
    split
    · exact .refl s
    · exact .semGive s p _
  | semBreak p n =>
    refine (Retires.frameOf fun s => ?_).next e
    split
    · exact .refl s
    · split
      · exact .refl s
      · exact .semBreak s _
  | routeSet p f => exact (Retires.claimedFrame fun i => .routeSet (hb.noFrame p) i f).next e
  | routeClear p index => exact (Retires.claimedFrame fun i => .routeClear (hb.noFrame p) i).next e
  | routeGet | pollGet | pollRead =>
    refine (Retires.frameOf fun s => ?_).next e
    unfold withIndex
    split <;> exact .refl s
  | pollSet p f => exact (Retires.claimedFrame fun n => .pollSet _ n f).next e
  | pollStart p index => exact (Retires.claimedFrame fun n => .pollStart _ n).next e
  | pollStop p index => exact (Retires.claimedFrame fun n => .undue_setPoll _ n _).next e
  | segmentSet p f => exact (Retires.claimedFrame fun g => .segmentSet _ g f).next e
  | segmentGet p b =>
    exact (Retires.frameOf fun _ => .of_keeps (withIndex_keeps fun _ => look_keeps ..)).next e
  | statsClear p b => exact (Retires.claimedFrame fun _ => .of_keeps (setEngine_keeps ..)).next e
  | hubReset p =>
    refine (Retires.frameOf fun s => ?_).next e
    split
    · exact .refl s
    · exact .of_keeps (l := []) (withClaim_keeps (.refl ..))
  | badFrame p kind => exact (Retires.takeFrame (.modifyPort_eq rfl)).next e
  | framingError p | frameEndsEarly p | prstxnRise p =>
    refine Retires.next ?_ e
    split
    · exact .modifyPort_eq rfl
    · exact .refl s
  | resetnFall =>
    obtain ⟨u, hu, hkeeps, -, hports⟩ := exec_resetnFall_keeps s
    exact (Retires.of_reqs hkeeps.hold fun p => by rw [hports p]).next (hu.symm.trans e)
  | pollCountdown n => exact (Retires.hubEvent (.countdown s n)).next e
  | pollDue n =>
    refine (Retires.hubEvent ?_).next e
    split
    · exact .becomeDue s n
    · exact .refl s
  | ageIncrease => exact .of_keeps (exec_keeps e) (by simp [changes]) (by simp [changes])
  | _ => cases hc

/-- Every command but the settlement of a HOLD lets holds end, pass on, and waiters leave at most. -/
theorem exec_retires (h : HoldTableSound s) (hb : RequestBounds s) {c : Instr} (hc : ∀ p g, c ≠ .holdSettlement p g)
    (e : exec c s = .next t) : Retires s t := by
  cases c with
  | holdSettlement p g => exact absurd rfl (hc p g)
  | submit p f =>
    refine (Retires.takeFrame ?_).next e
    split
    · next r hr =>
      obtain ⟨-, hrecorded⟩ := admission_ok hr
      exact .addOpen (hrecorded ▸ rfl)
    · exact .refl _
  | cancel p tag => exact (Retires.takeFrame (.cancelReq (hb.noFrame p) p tag)).next e
  | segmentDisable p b => exact (Retires.claimedFrame fun g => .segmentDisable _ g).next e
  | segmentRestore p b => exact (Retires.claimedFrame fun g => .segmentRestore _ g).next e
  | portResetNormalEnd p =>
    refine (Retires.frameEnd fun _ => ?_).next e
    exact .resetPort (h.retires hb (.noFrame s p)) (hb.noFrame p) p
  | hubResetNormalEnd p =>
    refine (Retires.frameEnd fun x => ?_).next e
    split
    · exact .hubReset _
    · exact .refl _
  | prstxnFall p =>
    refine Retires.next ?_ e
    split
    · exact (Retires.resetPort h hb p).trans (.setPrst _ p true)
    · exact .setPrst s p true
  | resetnRise a b c =>
    obtain ⟨u, hu, hvalues⟩ := exec_resetnRise_values s #v[a, b, c]
    exact (Retires.of_empty hvalues.holds fun p => congrArg PortState.reqs (hvalues.ports p)).next (hu.symm.trans e)
  | arbiterDecision g =>
    refine (Retires.hubEvent ?_).next e
    split
    · exact .runDecision g _ hb
    · exact .refl s
  | releaseSettlement p g =>
    refine (Retires.hubEvent ?_).next e
    split
    · next hr => exact .settleRelease h hb (settleable_readyHead hr)
    · exact .refl s
  | holdDecrease i => exact (Retires.hubEvent (.decreaseHold h hb i)).next e
  | holdExpiry i =>
    refine (Retires.hubEvent ?_).next e
    split
    · split
      · exact .expire h hb i
      · exact .refl s
    · exact .refl s
  | transactionEnd g acks data =>
    refine (Retires.hubEvent ?_).next e
    split
    · split
      · exact .refl s
      · exact .endTransaction hb g _ _
    · exact .refl s
  | lineConflict g acks =>
    refine (Retires.hubEvent ?_).next e
    split
    · exact .conflict hb g _ acks
    · exact .refl s
  | timeout g acks =>
    refine (Retires.hubEvent ?_).next e
    split
    · exact .expireLimit hb g _ acks
    · exact .refl s
  | cutEnd g =>
    refine (Retires.hubEvent ?_).next e
    split
    · split
      · exact .leaveTo s g _
      all_goals exact .refl s
    · exact .refl s
  | lineLowInIdle | freeWindowComplete | freeWindowRestart | recoverySclHigh =>
    exact .of_keeps (exec_keeps e) (by simp [changes]) (by simp [changes])
  | limitWindowEnd g =>
    refine (Retires.hubEvent ?_).next e
    split
    · exact .tryRecovery s g
    · exact .refl s
  | recoverySclTimeout g =>
    refine (Retires.hubEvent ?_).next e
    split
    · split
      · exact .enterDisabled s g
      · exact .enterFaulted s g _
    · exact .refl s
  | recoveryPulseEnd g sda =>
    refine (Retires.hubEvent ?_).next e
    split
    · split
      · exact .enterDisabled s g
      · exact .afterPulse s g _ _ sda
    · exact .refl s
  | recoveryStopEnd g =>
    refine (Retires.hubEvent ?_).next e
    split
    · exact .leaveTo s g _
    · exact .refl s
  | _ => exact exec_retires_of_calm hb rfl e

theorem HoldTableSound.next {u : State} (h : HoldTableSound u)
    (e : (.next u : Host.Outcome State Fault Refusal) = .next t) : HoldTableSound t := by
  cases e
  exact h

theorem HoldTableSound.hubEvent (h : HoldTableSound s) {act : State → State} (hact : HoldTableSound (act s)) :
    HoldTableSound (Machine.hubEvent act s) := by
  unfold Machine.hubEvent
  split
  · exact h
  · exact hact

theorem HoldTableSound.exec (h : HoldTableSound s) (hb : RequestBounds s) (hl : LanesSound s) {c : Instr}
    (e : Machine.exec c s = .next t) : HoldTableSound t := by
  by_cases hc : ∃ p g, c = .holdSettlement p g
  · obtain ⟨p, g, rfl⟩ := hc
    refine (h.hubEvent ?_).next e
    split
    · next hr =>
      obtain ⟨hhead, hk⟩ := (settleable_iff .hold).mp hr
      exact h.settleHold hb hl hhead hk
    · exact h
  · push Not at hc
    exact h.retires hb (exec_retires h hb hc e)

end State

/-- Settles O58: the settlement of a HOLD grants a free key, or lets the head of a lane join waiters that its port is not
among; every other command lets holds end or pass on, and waiters leave with their HOLDs. -/
theorem stepKeepsTheHoldTableSound : Obligations.StepKeepsTheHoldTableSound := by
  intro s t hb hl hu hw e
  have h := HoldTableSound.of_invariants hu hw
  have hkept : HoldTableSound t := by
    unfold step at e
    split at e
    · exact h.retires hb ((Retires.idle s).next e)
    · next rest _ =>
      have hrest : Retires s { s with pending := rest } := .of_reqs (fun _ => rfl) fun _ => rfl
      exact (h.retires hb hrest).exec (s := { s with pending := rest }) hb hl e
  exact ⟨hkept.keys, hkept.waitersSound⟩

end Sys2Proof.Machine
end

section
/-! PROOF. Choosing a winner: the ranking of PRIORITY mode and the rotation of DEFICIT mode (R79, R81, R82, R83). -/

namespace Sys2Proof.Machine

set_option Elab.async false

open State

variable {s : State} {g : Seg} {c : Contender}

namespace State

/-! ### A decision has a winner only when there is a candidate (R76) -/

theorem any_candidate_iff : (allSegs.any fun c => (s.candidate g c).isSome) = true ↔ ∃ c, s.candidate g c ≠ none := by
  simp only [List.any_eq_true, mem_allSegs, true_and, Option.isSome_iff_ne_none]

theorem winner_of_no_candidate (h : ∀ c, s.candidate g c = none) : s.winner g = none :=
  if_neg fun hany => (any_candidate_iff.mp hany).elim fun c hc => hc (h c)

theorem winner_of_priority (hmode : (s.arbiter g).mode = .priority) (h : ∃ c, s.candidate g c ≠ none) :
    s.winner g = ((s.arbiter g).ranking.toList.find? fun c => (s.candidate g c).isSome).map fun c =>
      (c, s.arbiter g) := by
  rw [winner, if_pos (any_candidate_iff.mpr h), hmode]

theorem winner_of_deficit (hmode : (s.arbiter g).mode = .deficit) (h : ∃ c, s.candidate g c ≠ none) :
    s.winner g = (rotate (s.costs g) (s.arbiter g).quanta 40 (s.arbiter g).deficits (s.arbiter g).current).map
      fun x => (x.2, { s.arbiter g with deficits := x.1, current := x.2 }) := by
  rw [winner, if_pos (any_candidate_iff.mpr h), hmode]
  simp only [hmode]

/-! ### The rotation (R82) -/

variable {costs : Vector (Option Nat) 4} {quanta d d' : Vector Nat 4} {c' : Contender} {k fuel : Nat}

theorem rotate_of_covered (hk : costs[c] = some k) (hle : k ≤ d[c]) :
    rotate costs quanta (fuel + 1) d c = some (d, c) := by
  rw [rotate, hk]
  exact if_pos hle

theorem rotate_of_short (hk : costs[c] = some k) (hlt : d[c] < k) :
    rotate costs quanta (fuel + 1) d c = rotate costs quanta fuel (arrive costs quanta d (c + 1)) (c + 1) := by
  rw [rotate, hk]
  exact if_neg (Nat.not_le.mpr hlt)

theorem rotate_of_none (hc : costs[c] = none) :
    rotate costs quanta (fuel + 1) d c = rotate costs quanta fuel (arrive costs quanta (d.set c 0) (c + 1)) (c + 1) := by
  rw [rotate, hc]
  rfl

/-- The first win that the model's procedure finds is the one R82 leads to. -/
theorem rotation_of_rotate : ∀ {fuel : Nat} {d : Vector Nat 4} {c : Contender},
    rotate costs quanta fuel d c = some (d', c') → Rotation costs quanta d c d' c' := by
  intro fuel
  induction fuel with
  | zero => nofun
  | succ fuel ih =>
    intro d c h
    cases hc : costs[c] with
    | none => exact .noCandidate hc (ih (rotate_of_none hc ▸ h))
    | some k =>
      by_cases hle : k ≤ d[c]
      · cases (rotate_of_covered hc hle).symm.trans h
        exact .wins hc hle
      · have hlt := Nat.not_le.mp hle
        exact .tooCostly hc hlt (ih (rotate_of_short hc hlt ▸ h))

theorem set_getElem (x c : Contender) (v : Nat) : (d.set c v)[x] = if c = x then v else d[x] := by
  simp [Vector.getElem_set, Fin.val_inj]

/-- A contender that becomes current gains its quantum when it has a candidate, and no other gains (R82 step 3). -/
theorem arrive_getElem (x c : Contender) :
    (arrive costs quanta d c)[x] = if c = x ∧ costs[c].isSome then d[x] + quanta[x] else d[x] := by
  unfold arrive
  split
  · next hsome =>
    rw [set_getElem]
    by_cases h : c = x
    · subst h
      rw [if_pos rfl, if_pos ⟨rfl, hsome⟩]
    · rw [if_neg h, if_neg fun hx => h hx.1]
  · next hnone => exact (if_neg fun hx => hnone hx.2).symm

/-! ### The rotation reaches a winner (R83) -/

/-- How many contenders become current before `x` does, when `c` is current. -/
def before (c x : Contender) : Nat := (x - c - 1).val

theorem before_next (h : c + 1 ≠ x) : before c x = before (c + 1) x + 1 := by
  revert h
  revert c x
  decide

/-- A contender that does not win passes the turn on, and takes no deficit from one with a candidate (R82 step 2). -/
theorem rotate_passes_on (h : ∀ k, costs[c] = some k → d[c] < k) (fuel : Nat) :
    ∃ e : Vector Nat 4, (∀ x : Contender, costs[x].isSome → e[x] = d[x]) ∧
      rotate costs quanta (fuel + 1) d c = rotate costs quanta fuel (arrive costs quanta e (c + 1)) (c + 1) := by
  cases hc : costs[c] with
  | some k => exact ⟨d, fun _ _ => rfl, rotate_of_short hc (h k hc)⟩
  | none =>
    refine ⟨d.set c 0, fun x hx => ?_, rotate_of_none hc⟩
    rw [set_getElem, if_neg]
    rintro rfl
    simp [hc] at hx

/-- Contender `x` wins at the latest when it has become current `passes + 1` times, with a quantum of 8 or more each
time. -/
theorem rotate_isSome {x : Contender} (hx : costs[x] = some k) (hq : 8 ≤ quanta[x]) :
    ∀ {fuel passes : Nat} {d : Vector Nat 4} {c : Contender}, k ≤ d[x] + 8 * (passes + 1) →
      4 * passes + before c x + 1 < fuel → (rotate costs quanta fuel d c).isSome := by
  intro fuel
  induction fuel with
  | zero => exact fun _ h => absurd h (Nat.not_lt_zero _)
  | succ fuel ih =>
    intro passes d c hk hfuel
    by_cases hwins : ∃ j, costs[c] = some j ∧ j ≤ d[c]
    · obtain ⟨j, hj, hle⟩ := hwins
      simp [rotate_of_covered hj hle]
    · push Not at hwins
      obtain ⟨e, he, hmoves⟩ := rotate_passes_on (quanta := quanta) hwins fuel
      have hkept : e[x] = d[x] := he x (by simp [hx])
      rw [hmoves]
      by_cases hnext : c + 1 = x
      · have hgain : (arrive costs quanta e (c + 1))[x] = d[x] + quanta[x] := by
          rw [arrive_getElem, if_pos ⟨hnext, by simp [hnext, hx]⟩, hkept]
        cases passes with
        | zero =>
          obtain ⟨fuel, rfl⟩ : ∃ f, fuel = f + 1 := Nat.exists_eq_add_one.mpr (by omega)
          subst hnext
          rw [rotate_of_covered hx (by omega)]
          rfl
        | succ passes =>
          refine ih (passes := passes) (by omega) ?_
          have hround : before (c + 1) x ≤ 3 := Nat.lt_succ_iff.mp (Fin.isLt _)
          omega
      · have hsame : (arrive costs quanta e (c + 1))[x] = d[x] := by
          rw [arrive_getElem, if_neg fun h => hnext h.1, hkept]
        have hstep := before_next hnext
        exact ih (passes := passes) (by omega) (by omega)

/-! ### The costs of R81 -/

theorem cost_request (s : State) (p : Port) (r : Request) :
    s.cost (.request p r) = 1 + r.writeData.length + r.readLen := rfl

theorem cost_poll (s : State) (n : PollIdx) :
    s.cost (.poll n) = 1 + (s.poll n).config.pointerCount.val + (s.poll n).config.readLen := by
  have hcount : (s.poll n).config.pointerCount.val ≤ 2 := Nat.lt_succ_iff.mp (Fin.isLt _)
  simp [cost, workOf, hcount]

theorem costs_getElem (s : State) (g : Seg) (c : Contender) : (s.costs g)[c] = (s.candidate g c).map s.cost := by
  simp [costs]

theorem cost_le (h : CostsBounded s) {x : Candidate} (hx : s.candidate g c = some x) : s.cost x ≤ 65 := by
  obtain ⟨hreqs, hpolls⟩ := h
  cases x with
  | request p r =>
    have hr := hreqs p r (candidate_request_mem hx)
    rw [cost_request]
    omega
  | poll n =>
    have hcount : (s.poll n).config.pointerCount.val < 3 := Fin.isLt _
    have hlen := hpolls n
    rw [cost_poll]
    omega

theorem costs_le (h : CostsBounded s) (hk : (s.costs g)[c] = some k) : k ≤ 65 := by
  rw [costs_getElem] at hk
  obtain ⟨x, hx, rfl⟩ := Option.map_eq_some_iff.mp hk
  exact cost_le h hx

end State

/-- Settles O37: the ranking is searched from its front. -/
theorem priorityServesTheHighestRanked : Obligations.PriorityServesTheHighestRanked := by
  refine fun s g hmode => ⟨fun c above below hranking hc hnone => ?_, winner_of_no_candidate⟩
  have hfirst : (s.arbiter g).ranking.toList.find? (fun c => (s.candidate g c).isSome) = some c :=
    List.find?_eq_some_iff_append.mpr ⟨Option.isSome_iff_ne_none.mpr hc, above, below, hranking, fun x hx => by
      simp [hnone x hx]⟩
  rw [winner_of_priority hmode ⟨c, hc⟩, hfirst]
  rfl

/-- Settles O38: nine turns of a contender with a candidate gain 72, more than the 65 a candidate costs at most. -/
theorem deficitRotationEndsWithTheWinner : Obligations.DeficitRotationEndsWithTheWinner := by
  refine ⟨cost_request, cost_poll, fun s g ⟨hcosts, harbiters⟩ hmode ⟨x, hx⟩ => ?_⟩
  obtain ⟨y, hy⟩ := Option.ne_none_iff_exists'.mp hx
  have hcost : (s.costs g)[x] = some (s.cost y) := by rw [costs_getElem, hy]; rfl
  obtain ⟨-, hbounds, -⟩ := harbiters g
  have hround : before (s.arbiter g).current x ≤ 3 := Nat.lt_succ_iff.mp (Fin.isLt _)
  have hsome : (rotate (s.costs g) (s.arbiter g).quanta 40 (s.arbiter g).deficits (s.arbiter g).current).isSome :=
    rotate_isSome hcost (hbounds x).1 (passes := 8) (by have := cost_le hcosts hy; omega) (by omega)
  obtain ⟨⟨d, c⟩, hrotate⟩ := Option.isSome_iff_exists.mp hsome
  refine ⟨d, c, ?_, rotation_of_rotate hrotate⟩
  rw [winner_of_deficit hmode ⟨x, hx⟩, hrotate]
  rfl

end Sys2Proof.Machine
end

section
/-! PROOF. The grant: the winner's candidate starts its transaction in the event of the decision (R78, R82, R92). -/

namespace Sys2Proof.Machine

set_option Elab.async false

open State

variable {s : State} {g : Seg} {c : Contender} {a : Arbiter}

namespace State

/-- A win takes its cost from the winner's deficit in DEFICIT mode alone (R82 step 1). -/
theorem charge_eq (a : Arbiter) (c : Contender) (k : Nat) : charge a c k =
    if a.mode = .deficit then { a with deficits := a.deficits.set c (a.deficits[c] - k) } else a := by
  cases hmode : a.mode <;> simp [charge, hmode]

theorem runDecision_of_request {p : Port} {r : Request} (hw : s.winner g = some (c, a))
    (hc : s.candidate g c = some (.request p r)) (hkept : s.losesHold p r = false) (fuel : Nat) :
    runDecision g (fuel + 1) s = (s.setArbiter g (charge a c (s.cost (.request p r)))).grant g (.request p r) := by
  simp [runDecision, hw, hc, hkept]

theorem runDecision_of_poll {n : PollIdx} (hw : s.winner g = some (c, a)) (hc : s.candidate g c = some (.poll n))
    (fuel : Nat) :
    runDecision g (fuel + 1) s = (s.setArbiter g (charge a c (s.cost (.poll n)))).grant g (.poll n) := by
  simp [runDecision, hw, hc]

end State

/-- Settles O39: an IDLE engine without a disable pending may decide, and a request that has its hold is granted at
once. -/
theorem grantStartsTheTransaction : Obligations.GrantStartsTheTransaction := by
  intro s g c a hheld hidle hpending hw
  have hmay : s.mayDecide g = true := by simp [mayDecide, hidle, hpending]
  refine ⟨fun p r hc hhold => ?_, fun n hc => ?_⟩
  · have hkept : s.losesHold p r = false := by
      cases hunder : r.underHold with
      | false => simp [losesHold, hunder]
      | true => simp [losesHold, hhold hunder]
    rw [exec_arbiterDecision hheld hmay, runDecision_of_request hw hc hkept, charge_eq]
    rfl
  · rw [exec_arbiterDecision hheld hmay, runDecision_of_poll hw hc, charge_eq]
    rfl

end Sys2Proof.Machine
end

section
/-! PROOF. SEGMENT SET: the checks in order, then engine and arbiter are configured (R84, R106). -/

namespace Sys2Proof.Machine

set_option Elab.async false

open State

variable {s : State} {p : Port} {f : SegmentFields} {g : Seg} {c : SegmentConfig}

/-! ### Bytes in range (section 11.2) -/

theorem readSpeed_some {b : Byte} {x : Speed} (h : readSpeed b = some x) : b.toNat ≤ 2 ∧ x.code = b := by
  unfold readSpeed at h
  split_ifs at h with h0 h1 h2 <;> cases h <;> simp [*, Speed.code]

theorem readSpeed_of_le {b : Byte} (h : b.toNat ≤ 2) : ∃ x, readSpeed b = some x := by
  obtain hb | hb | hb : b = 0x00 ∨ b = 0x01 ∨ b = 0x02 := by bv_omega
  all_goals exact ⟨_, by rw [hb]; rfl⟩

theorem readMode_some {b : Byte} {m : ArbMode} (h : readMode b = some m) : b.toNat ≤ 1 ∧ m.code = b := by
  unfold readMode at h
  split_ifs at h with h0 h1 <;> cases h <;> simp [*, ArbMode.code]

theorem readMode_of_le {b : Byte} (h : b.toNat ≤ 1) : ∃ m, readMode b = some m := by
  obtain hb | hb : b = 0x00 ∨ b = 0x01 := by bv_omega
  all_goals exact ⟨_, by rw [hb]; rfl⟩

/-- A ranking is read from four bytes below 4 that differ (R84). -/
theorem readRanking_some {b1 b2 b3 b4 : Byte} {r : Vector Contender 4} (h : readRanking b1 b2 b3 b4 = some r) :
    r.toList.Nodup ∧ b1.toNat ≤ 3 ∧ b2.toNat ≤ 3 ∧ b3.toNat ≤ 3 ∧ b4.toNat ≤ 3 ∧
      r.toList.map (·.val) = [b1.toNat, b2.toNat, b3.toNat, b4.toNat] := by
  unfold readRanking at h
  split at h
  · next c1 c2 c3 c4 h1 h2 h3 h4 =>
    obtain ⟨hnodup, hr⟩ := Option.ite_none_right_eq_some.mp h
    obtain rfl := Option.some.inj hr
    obtain ⟨hb1, he1⟩ := readIdx_some h1
    obtain ⟨hb2, he2⟩ := readIdx_some h2
    obtain ⟨hb3, he3⟩ := readIdx_some h3
    obtain ⟨hb4, he4⟩ := readIdx_some h4
    exact ⟨hnodup, Nat.le_of_lt_succ hb1, Nat.le_of_lt_succ hb2, Nat.le_of_lt_succ hb3, Nat.le_of_lt_succ hb4,
      by simp [he1, he2, he3, he4]⟩
  · cases h

theorem readRanking_of_fits {b1 b2 b3 b4 : Byte} (h1 : b1.toNat ≤ 3) (h2 : b2.toNat ≤ 3) (h3 : b3.toNat ≤ 3)
    (h4 : b4.toNat ≤ 3) (hnodup : [b1, b2, b3, b4].Nodup) : ∃ r, readRanking b1 b2 b3 b4 = some r := by
  have hnumbers : [b1.toNat, b2.toNat, b3.toNat, b4.toNat].Nodup :=
    hnodup.map fun _ _ => BitVec.eq_of_toNat_eq
  have hranks : ([⟨b1.toNat, Nat.lt_succ_of_le h1⟩, ⟨b2.toNat, Nat.lt_succ_of_le h2⟩, ⟨b3.toNat, Nat.lt_succ_of_le h3⟩,
      ⟨b4.toNat, Nat.lt_succ_of_le h4⟩] : List Contender).Nodup := .of_map Fin.val hnumbers
  rw [readRanking, readIdx_of_lt ⟨_, Nat.lt_succ_of_le h1⟩ rfl, readIdx_of_lt ⟨_, Nat.lt_succ_of_le h2⟩ rfl,
    readIdx_of_lt ⟨_, Nat.lt_succ_of_le h3⟩ rfl, readIdx_of_lt ⟨_, Nat.lt_succ_of_le h4⟩ rfl]
  exact ⟨_, if_pos hranks⟩

/-! ### The values a SEGMENT SET carries (R84, R106) -/

/-- Every value a SEGMENT SET carries is in its range. -/
def SegmentFits (f : SegmentFields) : Prop :=
  f.speed.toNat ≤ 2 ∧ f.limit ≠ 0 ∧ f.mode.toNat ≤ 1 ∧
  f.rank1.toNat ≤ 3 ∧ f.rank2.toNat ≤ 3 ∧ f.rank3.toNat ≤ 3 ∧ f.rank4.toNat ≤ 3 ∧
  [f.rank1, f.rank2, f.rank3, f.rank4].Nodup ∧
  8 ≤ f.quantum0.toNat ∧ 8 ≤ f.quantum1.toNat ∧ 8 ≤ f.quantum2.toNat ∧ 8 ≤ f.quantum3.toNat

/-- The configuration holds the carried values. -/
structure ConfigCarries (f : SegmentFields) (c : SegmentConfig) : Prop where
  speed : c.speed.code = f.speed
  limit : c.limit = f.limit.toNat
  mode : c.mode.code = f.mode
  ranking : c.ranking.toList.map (·.val) = [f.rank1.toNat, f.rank2.toNat, f.rank3.toNat, f.rank4.toNat]
  quanta : c.quanta = #v[f.quantum0.toNat, f.quantum1.toNat, f.quantum2.toNat, f.quantum3.toNat]

theorem segmentConfigOf_some (h : segmentConfigOf f = some c) : SegmentFits f ∧ ConfigCarries f c := by
  unfold segmentConfigOf at h
  split at h
  · next speed mode ranking hspeed hmode hranking =>
    obtain ⟨hrest, hc⟩ := Option.ite_none_right_eq_some.mp h
    obtain rfl := Option.some.inj hc
    simp only [Bool.and_eq_true, bne_iff_ne, quantumFits, decide_eq_true_eq] at hrest
    obtain ⟨⟨⟨⟨hlimit, hq0⟩, hq1⟩, hq2⟩, hq3⟩ := hrest
    obtain ⟨hspeedLe, hspeedCode⟩ := readSpeed_some hspeed
    obtain ⟨hmodeLe, hmodeCode⟩ := readMode_some hmode
    obtain ⟨hnodup, hr1, hr2, hr3, hr4, hranks⟩ := readRanking_some hranking
    have hnumbers : [f.rank1.toNat, f.rank2.toNat, f.rank3.toNat, f.rank4.toNat].Nodup :=
      hranks ▸ hnodup.map Fin.val_injective
    have hbytes : [f.rank1, f.rank2, f.rank3, f.rank4].Nodup := .of_map BitVec.toNat hnumbers
    exact ⟨⟨hspeedLe, hlimit, hmodeLe, hr1, hr2, hr3, hr4, hbytes, hq0, hq1, hq2, hq3⟩,
      hspeedCode, rfl, hmodeCode, hranks, rfl⟩
  · cases h

theorem segmentConfigOf_of_fits (h : SegmentFits f) : ∃ c, segmentConfigOf f = some c := by
  obtain ⟨hspeedLe, hlimit, hmodeLe, hr1, hr2, hr3, hr4, hnodup, hq0, hq1, hq2, hq3⟩ := h
  obtain ⟨speed, hspeed⟩ := readSpeed_of_le hspeedLe
  obtain ⟨mode, hmode⟩ := readMode_of_le hmodeLe
  obtain ⟨ranking, hranking⟩ := readRanking_of_fits hr1 hr2 hr3 hr4 hnodup
  have hrest : (f.limit != 0 && quantumFits f.quantum0 && quantumFits f.quantum1 && quantumFits f.quantum2
      && quantumFits f.quantum3) = true := by
    simp only [Bool.and_eq_true, bne_iff_ne, quantumFits, decide_eq_true_eq]
    exact ⟨⟨⟨⟨hlimit, hq0⟩, hq1⟩, hq2⟩, hq3⟩
  simp only [segmentConfigOf, hspeed, hmode, hranking, if_pos hrest]
  exact ⟨_, rfl⟩

theorem segmentConfigOf_of_not_fits (h : ¬SegmentFits f) : segmentConfigOf f = none :=
  Option.eq_none_iff_forall_ne_some.mpr fun _ hc => h (segmentConfigOf_some hc).1

/-! ### The arbiter's part (R84) -/

variable {a : Arbiter}

theorem configured_of_mode_ne (h : c.mode ≠ a.mode) :
    a.configured c = ⟨c.mode, c.ranking, c.quanta, #v[0, 0, 0, 0], 0⟩ := if_pos h

theorem configured_of_priority (h : c.mode = a.mode) (hmode : a.mode = .priority) :
    a.configured c = { a with ranking := c.ranking, quanta := c.quanta } := by
  rw [Arbiter.configured, if_neg (not_not.mpr h), hmode]

theorem configured_of_deficit (h : c.mode = a.mode) (hmode : a.mode = .deficit) :
    a.configured c = { a with
      ranking := c.ranking
      quanta := c.quanta
      deficits := Vector.ofFn fun i => min a.deficits[i] (c.quanta[i] + 64) } := by
  rw [Arbiter.configured, if_neg (not_not.mpr h), hmode]

/-- Whatever the two modes are, the carried mode, ranking and quanta are taken. -/
theorem configured_fields (a : Arbiter) (c : SegmentConfig) :
    (a.configured c).mode = c.mode ∧ (a.configured c).ranking = c.ranking ∧ (a.configured c).quanta = c.quanta := by
  by_cases h : c.mode = a.mode
  · cases hmode : a.mode with
    | priority => simp [configured_of_priority h hmode, h]
    | deficit => simp [configured_of_deficit h hmode, h]
  · simp [configured_of_mode_ne h]

/-! ### The frame -/

namespace State

theorem exec_segmentSet (s : State) (p : Port) (f : SegmentFields) : exec (.segmentSet p f) s =
    .next (claimedFrame p .segmentSet f.segment (fun s g => s.segmentSet g f) s) := rfl

theorem segmentSet_badValue (s : State) (g : Seg) (h : segmentConfigOf f = none) :
    s.segmentSet g f = refuse s .segmentSet .badValue := by
  rw [State.segmentSet, h]

theorem segmentSet_ok (s : State) (g : Seg) (h : segmentConfigOf f = some c) : s.segmentSet g f =
    ⟨(s.setEngine g { s.engine g with speed := c.speed, limit := c.limit }).setArbiter g ((s.arbiter g).configured c),
      answer .segmentSet .ok, .none⟩ := by
  rw [State.segmentSet, h]

end State

/-- Settles O32, by the first check that fails, and by the mode the arbiter leaves and the mode it takes. -/
theorem segmentSetChecksThenConfigures : Obligations.SegmentSetChecksThenConfigures := by
  refine fun s p f hrun => ⟨fun hno => ?_, fun hclaim => ⟨fun hb => ?_, fun g hb => ⟨fun hout => ?_, fun hfits => ?_⟩⟩⟩
  · rw [exec_segmentSet, claimedFrame_unclaimed hrun hno]
    rfl
  · rw [exec_segmentSet, claimedFrame_claimed hclaim, indexedFrame_of_le hrun hb]
    rfl
  · rw [exec_segmentSet, claimedFrame_acts hrun hclaim g hb, segmentSet_badValue _ g (segmentConfigOf_of_not_fits hout)]
    exact congrArg _ (noFrame_answers ..)
  · obtain ⟨c, hc⟩ := segmentConfigOf_of_fits hfits
    obtain ⟨-, hcarries⟩ := segmentConfigOf_some hc
    obtain ⟨hmode, hranking, hquanta⟩ := configured_fields (s.arbiter g) c
    refine ⟨c.speed, (s.arbiter g).configured c, hcarries.speed, hmode ▸ hcarries.mode, hranking ▸ hcarries.ranking,
      hquanta ▸ hcarries.quanta, fun hne => ?_, fun hsame hdeficit => ?_, fun hsame hpriority => ?_, ?_⟩
    · rw [configured_of_mode_ne (hmode ▸ hne)]
      exact ⟨rfl, rfl⟩
    · rw [configured_of_deficit (hmode ▸ hsame) (hsame ▸ hdeficit)]
      exact ⟨rfl, fun x => by simp⟩
    · rw [configured_of_priority (hmode ▸ hsame) (hsame ▸ hpriority)]
      exact ⟨rfl, rfl⟩
    · rw [exec_segmentSet, claimedFrame_acts hrun hclaim g hb, segmentSet_ok _ g hc, hcarries.limit,
        noFrame_engine, noFrame_arbiter, noFrame_setEngine, noFrame_setArbiter]
      exact congrArg _ (noFrame_answers ..)

end Sys2Proof.Machine
end

section
/-! PROOF. SEGMENT GET: what it reports, and where a transaction stands (R72, R107, log 7). -/

namespace Sys2Proof.Machine

set_option Elab.async false

open State

variable {s : State} {p : Port} {g : Seg} {e : Engine} {a : Arbiter} {now : Nat}

theorem toList_of_four {α : Type} (v : Vector α 4) : v.toList = [v[0], v[1], v[2], v[3]] := by
  refine List.ext_getElem (by simp) fun i h _ => ?_
  match i with
  | 0 | 1 | 2 | 3 => simp
  | i + 4 => simp at h

/-- The fields of a SEGMENT GET reply, each number in its place (section 11.3). -/
theorem answer_segmentGet {phase occupant : Byte} (h : phaseAndOccupant g now e.state = [phase, occupant]) :
    answer .segmentGet .ok (segmentFields g now e a) =
      [0x00, e.speed.code, byte e.limit, a.mode.code, byte a.ranking[0].val, byte a.ranking[1].val,
        byte a.ranking[2].val, byte a.ranking[3].val, byte a.quanta[0], byte a.quanta[1], byte a.quanta[2],
        byte a.quanta[3], e.state.code, phase, occupant, boolByte e.disablePending, byte e.tries,
        e.faultReason.code, byte e.faultCount] ++
      [e.stats.started, e.stats.addrNacks, e.stats.dataNacks, e.stats.timeouts, e.stats.lineConflicts,
        e.stats.recoveries, e.stats.faults, a.deficits[0], a.deficits[1], a.deficits[2], a.deficits[3]].flatMap
          (fun n => [byte (n / 256), byte (n % 256)]) ++ [byte a.current.val] := by
  have hlen : (ReplyStatus.ok.code :: segmentFields g now e a).length = FrameKind.segmentGet.replyLen := by
    simp [segmentFields, h, toList_of_four, bytes2, FrameKind.replyLen]
  rw [answer, padTo_eq hlen.le, hlen, Nat.sub_self, List.replicate_zero, List.append_nil]
  simp [segmentFields, h, toList_of_four, bytes2, ReplyStatus.code]

theorem exec_segmentGet (s : State) (p : Port) (b : Byte) : exec (.segmentGet p b) s =
    .next (indexedFrame p .segmentGet b
      (fun s g => ⟨s.look g,
        answer .segmentGet .ok (segmentFields g s.freeCount (s.engine g) (s.arbiter g)), .none⟩) s) :=
  rfl

namespace State

/-- Only a look at a transaction draws a free value (log 7). -/
theorem look_of_not_active (h : ∀ x, (s.engine g).state ≠ .active x) : s.look g = s := by
  unfold look
  split
  · next x hx => exact absurd hx (h x)
  · rfl

theorem look_noFrame (s : State) (p : Port) (g : Seg) : (s.noFrame p).look g = (s.look g).noFrame p := by
  unfold look
  rw [noFrame_engine]
  split <;> rfl

theorem look_of_active {x : Transaction} (h : (s.engine g).state = .active x) : s.look g = s.draw := by
  rw [look, h]

end State

theorem phaseAndOccupant_of_not_active (h : ∀ x, e.state ≠ .active x) :
    phaseAndOccupant g now e.state = [0x00, 0xFF] := by
  unfold phaseAndOccupant
  split
  · next x hx => exact absurd hx (h x)
  · rfl

/-- A transaction reports the phase of the element it stands in, the free number of moves limited to its last. -/
theorem phaseAndOccupant_of_active {x : Transaction} (h : e.state = .active x) (hne : x.ahead ≠ []) :
    ∃ el, x.ahead[min (busMoves g x.since now) (x.ahead.length - 1)]? = some el ∧
      phaseAndOccupant g now e.state = [el.phase.code, x.carrier.code] := by
  have hlast : min (busMoves g x.since now) (x.ahead.length - 1) < x.ahead.length := by
    have := List.length_pos_of_ne_nil hne
    omega
  refine ⟨_, List.getElem?_eq_getElem hlast, ?_⟩
  have hstanding : x.standing g now = _ := List.drop_eq_getElem_cons hlast
  rw [h, phaseAndOccupant, Transaction.phase, hstanding]

/-- On a segment in range the frame looks at the transaction and reports. -/
theorem exec_segmentGet_reports (hrun : s.running p = true) {b : Byte} (hb : b.toNat = g.val) :
    exec (.segmentGet p b) s = .next ((s.look g).answers p .segmentGet
      (answer .segmentGet .ok (segmentFields g s.freeCount (s.engine g) (s.arbiter g)))) := by
  rw [exec_segmentGet, indexedFrame, frameOf_running hrun, withIndex_of_lt g hb, look_noFrame]
  exact congrArg _ (noFrame_answers ..)

/-- Settles O33: the moves of the bus are the free number that grows with the model's counter. -/
theorem segmentGetReports : Obligations.SegmentGetReports := by
  refine ⟨busMoves, fun g since _ _ h => busMoves_mono g since h, fun s p b hrun => ⟨fun hb => ?_, fun g hb =>
    ⟨fun hquiet => ?_, fun x hx hne => ?_⟩⟩⟩
  · rw [exec_segmentGet, indexedFrame_of_le hrun hb]
    rfl
  · rw [exec_segmentGet_reports hrun hb, look_of_not_active hquiet,
      answer_segmentGet (phaseAndOccupant_of_not_active hquiet)]
  · obtain ⟨now, hnow, hphase⟩ := phaseAndOccupant_of_active hx hne
    refine ⟨now, hnow, ?_⟩
    rw [exec_segmentGet_reports hrun hb, look_of_active hx, answer_segmentGet hphase]
    rfl

end Sys2Proof.Machine
end

section
/-! PROOF. What bounds the cost of every candidate: the lengths of the open requests and of the polls (R2, R81, R113),
and the operations that open no request and configure no poll. -/

namespace Sys2Proof.Machine

set_option Elab.async false

open State PortState

/-! ### The work of the open requests of one port -/

/-- Every request in the second list does the work of one in the first. -/
def WorkFrom (before after : List Request) : Prop :=
  ∀ r ∈ after, ∃ x ∈ before, r.writeData = x.writeData ∧ r.readLen = x.readLen

theorem WorkFrom.of_subset {before after : List Request} (h : after ⊆ before) : WorkFrom before after :=
  fun r hr => ⟨r, h hr, rfl, rfl⟩

theorem WorkFrom.trans {a b c : List Request} (h : WorkFrom a b) (k : WorkFrom b c) : WorkFrom a c := by
  intro r hr
  obtain ⟨x, hx, hdata, hlen⟩ := k r hr
  obtain ⟨y, hy, hdata', hlen'⟩ := h x hx
  exact ⟨y, hy, hdata.trans hdata', hlen.trans hlen'⟩

theorem WorkFrom.setReqState (ps : PortState) (tag : Byte) (st : ReqState) :
    WorkFrom ps.reqs (ps.setReqState tag st).reqs := by
  intro r hr
  obtain ⟨x, hx, rfl⟩ := List.mem_map.mp hr
  refine ⟨x, hx, ?_⟩
  split <;> exact ⟨rfl, rfl⟩

theorem complete_reqs_subset (ps : PortState) (r : Request) (e : Ending) : (ps.complete r e).reqs ⊆ ps.reqs := by
  rw [complete_reqs]
  exact List.eraseP_subset

theorem foldl_complete_reqs_subset (f : Request → Ending) (l : List Request) : ∀ ps : PortState,
    (l.foldl (fun ps r => ps.complete r (f r)) ps).reqs ⊆ ps.reqs := by
  induction l with
  | nil => exact fun ps => List.Subset.refl _
  | cons r l ih => exact fun ps => List.Subset.trans (ih _) (complete_reqs_subset ps r (f r))

theorem grantAll_reqs_subset (ps : PortState) (served : List Waiter) : (ps.grantAll served).reqs ⊆ ps.reqs := by
  rw [grantAll_eq_granted]
  exact foldl_complete_reqs_subset ..

namespace State

/-- From `s` to `t` no request was opened and no poll entry was configured. -/
structure WorkStands (s t : State) : Prop where
  reqs : ∀ p, WorkFrom (s.port p).reqs (t.port p).reqs
  config : ∀ n, (t.poll n).config = (s.poll n).config

variable {s t u : State} {p : Port} {g : Seg} {l : List Part}

theorem CostsBounded.stands (h : CostsBounded s) (k : WorkStands s t) : CostsBounded t := by
  obtain ⟨hreqs, hpolls⟩ := h
  refine ⟨fun p r hr => ?_, fun n => k.config n ▸ hpolls n⟩
  obtain ⟨x, hx, hdata, hlen⟩ := k.reqs p r hr
  rw [hdata, hlen]
  exact hreqs p x hx

namespace WorkStands

theorem refl (s : State) : WorkStands s s := ⟨fun _ => .of_subset (List.Subset.refl _), fun _ => rfl⟩

theorem trans (h : WorkStands s t) (k : WorkStands t u) : WorkStands s u :=
  ⟨fun p => (h.reqs p).trans (k.reqs p), fun n => (k.config n).trans (h.config n)⟩

theorem foldl {α : Type} {f : State → α → State} (hf : ∀ s a, WorkStands s (f s a)) (l : List α) :
    ∀ s : State, WorkStands s (l.foldl f s) := by
  induction l with
  | nil => exact refl
  | cons a l ih => exact fun s => (hf s a).trans (ih _)

theorem next (k : WorkStands s u) (e : (.next u : Host.Outcome State Fault Refusal) = .next t) : WorkStands s t := by
  cases e
  exact k

/-! ### Updates of the state -/

theorem of_ports (k : Keeps s t l) (h : ∀ p, WorkFrom (s.port p).reqs (t.port p).reqs) (m : .polls ∉ l := by decide) :
    WorkStands s t := ⟨h, fun n => by rw [k.poll n m]⟩

theorem of_keeps (k : Keeps s t l) (mp : .ports ∉ l := by decide) (m : .polls ∉ l := by decide) : WorkStands s t :=
  of_ports k (fun p => .of_subset (by rw [k.port p mp]; exact List.Subset.refl _)) m

theorem of_polls (k : Keeps s t l) (h : ∀ n, (t.poll n).config = (s.poll n).config) (m : .ports ∉ l := by decide) :
    WorkStands s t :=
  ⟨fun p => .of_subset (by rw [k.port p m]; exact List.Subset.refl _), h⟩

/-- A command that leaves the lanes alone opens no request. -/
theorem of_calm (c : Calm s t) (k : Keeps s t l) (m : .polls ∉ l) : WorkStands s t :=
  of_ports k (fun p => .of_subset (c.reqs p).sublist.subset) m

theorem modifyPort {f : PortState → PortState} (h : WorkFrom (s.port p).reqs (f (s.port p)).reqs) :
    WorkStands s (s.modifyPort p f) := by
  refine of_ports (modifyPort_keeps ..) fun q => ?_
  rw [modifyPort_port]
  split
  · next e => exact e ▸ h
  · exact .of_subset (List.Subset.refl _)

theorem modifyPort_eq {f : PortState → PortState} (h : (f (s.port p)).reqs = (s.port p).reqs) :
    WorkStands s (s.modifyPort p f) := modifyPort (.of_subset (by rw [h]; exact List.Subset.refl _))

theorem setReqState (s : State) (p : Port) (tag : Byte) (st : ReqState) :
    WorkStands s (s.modifyPort p (·.setReqState tag st)) := modifyPort (WorkFrom.setReqState _ _ _)

theorem mapPorts {f : Port → PortState → PortState} (h : ∀ p ps, (f p ps).reqs ⊆ ps.reqs) :
    WorkStands s (s.mapPorts f) :=
  of_ports (mapPorts_keeps ..) fun p => .of_subset (by rw [mapPorts_port]; exact h _ _)

theorem setPoll {n : PollIdx} {x : PollEntry} (h : x.config = (s.poll n).config) : WorkStands s (s.setPoll n x) := by
  refine of_polls (setPoll_keeps ..) fun m => ?_
  rw [setPoll_poll]
  split
  · next e => exact e ▸ h
  · rfl

theorem mapPolls {f : PollEntry → PollEntry} (h : ∀ e, (f e).config = e.config) : WorkStands s (s.mapPolls f) :=
  of_polls (mapPolls_keeps ..) fun n => by rw [mapPolls_poll, h]

/-! ### Requests and holds -/

theorem completeReq (s : State) (p : Port) (r : Request) (e : Ending) : WorkStands s (s.completeReq p r e) :=
  modifyPort (.of_subset (complete_reqs_subset ..))

theorem handOver (s : State) (i : HoldIdx) : WorkStands s (s.handOver i) := by
  unfold State.handOver
  split
  · exact .refl s
  · have hset (x : Option HoldEntry) : WorkStands s (s.setHold i x) := of_keeps (setHold_keeps ..)
    dsimp only
    split
    · exact hset _
    · split
      · exact (hset _).trans (completeReq ..)
      · exact hset _

theorem expire (s : State) (i : HoldIdx) : WorkStands s (s.expire i) := by
  unfold State.expire
  split
  · exact .refl s
  · exact (modifyPort_eq (addHoldEnd_reqs ..)).trans (handOver _ i)

theorem decreaseHold (s : State) (i : HoldIdx) : WorkStands s (s.decreaseHold i) := by
  unfold State.decreaseHold
  split
  · exact .refl s
  · split
    · exact of_keeps (setHold_keeps ..)
    · exact expire s i

theorem cancelReq (s : State) (p : Port) (tag : Byte) : WorkStands s (s.cancelReq p tag).1 := by
  unfold State.cancelReq
  split
  · exact .refl s
  · split
    · exact completeReq ..
    · exact (of_keeps (dropWaiters_keeps ..)).trans (completeReq ..)
    · exact .refl s

theorem settleHold (s : State) (p : Port) (r : Request) : WorkStands s (s.settleHold p r) := by
  have hset (i : HoldIdx) (x : Option HoldEntry) : WorkStands s (s.setHold i x) := of_keeps (setHold_keeps ..)
  unfold State.settleHold
  dsimp only
  split
  · split
    · split
      · exact completeReq ..
      · exact (hset _ _).trans (setReqState ..)
    · exact .refl s
  · split
    · exact (hset _ _).trans (completeReq ..)
    · exact completeReq ..

theorem settleRelease (s : State) (p : Port) (r : Request) : WorkStands s (s.settleRelease p r) := by
  unfold State.settleRelease
  split
  · split
    · exact (handOver ..).trans (completeReq ..)
    · exact completeReq ..
  · exact completeReq ..

/-! ### Polls -/

theorem completePoll (s : State) (n : PollIdx) (st : Status) (data : List Byte) :
    WorkStands s (s.completePoll n st data) := by
  unfold State.completePoll
  dsimp only
  split
  · exact setPoll rfl
  · split
    · have htold : WorkStands s (s.tellPoll n (s.poll n).config.notify) := mapPorts fun q ps => by
        split
        · rw [addNotices_reqs]
          exact List.Subset.refl _
        · exact List.Subset.refl _
      exact htold.trans (setPoll rfl)
    · exact setPoll rfl

theorem becomeDue (s : State) (n : PollIdx) : WorkStands s (s.becomeDue n) := by
  unfold State.becomeDue
  dsimp only
  split
  · exact setPoll rfl
  · split
    · refine trans (setPoll ?_) (completePoll ..)
      rfl
    · refine trans (setPoll ?_) (of_keeps (setDue_keeps ..))
      rfl

theorem countdown (s : State) (n : PollIdx) : WorkStands s (s.countdown n) := by
  unfold State.countdown
  dsimp only
  split
  · split
    · exact setPoll rfl
    · exact becomeDue s n
  · exact .refl s

theorem pollStart (s : State) (n : PollIdx) : WorkStands s (s.pollStart n).state := by
  unfold State.pollStart
  dsimp only
  split
  · dsimp only
    split
    · exact .refl s
    · exact setPoll rfl
  · exact .refl s

theorem pollStop (s : State) (n : PollIdx) : WorkStands s (s.pollStop n).state :=
  (of_keeps (undue_keeps s n)).trans (setPoll rfl)

/-! ### Routes -/

theorem sweep (s : State) (i : RouteIdx) : WorkStands s (s.sweep i) where
  reqs q := .of_subset (by rw [((sweep_effects s i).requests q).reqs]; exact List.filter_sublist.subset)
  config n := by
    rw [sweep_poll]
    split <;> rfl

theorem routeSet (s : State) (i : RouteIdx) (f : RouteFields) : WorkStands s (s.routeSet i f).state := by
  have hset (x : RouteEntry) : WorkStands s (s.setRoute i x) := of_keeps (setRoute_keeps ..)
  unfold State.routeSet
  split
  · exact .refl s
  · split
    · exact .refl s
    · split
      · exact (hset _).trans (sweep _ i)
      · exact hset _

theorem routeClear (s : State) (i : RouteIdx) : WorkStands s (s.routeClear i).state := by
  unfold State.routeClear
  split
  · exact (of_keeps (setRoute_keeps ..)).trans (sweep _ i)
  · exact .refl s

/-! ### Segments going offline and the ends of transactions -/

theorem segmentNotice (s : State) (g : Seg) : WorkStands s (s.segmentNotice g) :=
  mapPorts fun _ _ => by rw [addNotices_reqs]; exact List.Subset.refl _

theorem endHolds (s : State) (g : Seg) : WorkStands s (s.endHolds g) := by
  refine foldl (fun s i => ?_) _ s
  split
  · split
    · exact (modifyPort_eq (addHoldEnd_reqs ..)).trans (of_keeps (setHold_keeps ..))
    · exact .refl s
  · exact .refl s

theorem drainLanes (s : State) (g : Seg) : WorkStands s (s.drainLanes g) :=
  mapPorts fun _ _ => by rw [completeAll_reqs]; exact List.filter_sublist.subset

theorem drainDue (s : State) (g : Seg) : WorkStands s (s.drainDue g) :=
  (foldl (fun s n => completePoll s n _ _) _ s).trans (of_keeps (setDue_keeps ..))

theorem goOffline (s : State) (g : Seg) : WorkStands s (s.goOffline g) :=
  (((endHolds s g).trans (drainLanes _ g)).trans (drainDue _ g)).trans (segmentNotice _ g)

theorem setEngine (s : State) (g : Seg) (x : Engine) : WorkStands s (s.setEngine g x) := of_keeps (setEngine_keeps ..)

theorem enterDisabled (s : State) (g : Seg) : WorkStands s (s.enterDisabled g) :=
  (setEngine ..).trans (goOffline _ g)

theorem enterFaulted (s : State) (g : Seg) (reason : FaultReason) : WorkStands s (s.enterFaulted g reason) :=
  (setEngine ..).trans (goOffline _ g)

theorem tryRecovery (s : State) (g : Seg) : WorkStands s (s.tryRecovery g) := by
  unfold State.tryRecovery
  dsimp only
  split
  · exact setEngine ..
  · exact enterFaulted ..

theorem leaveTo (s : State) (g : Seg) (next : EngineState) : WorkStands s (s.leaveTo g next) := by
  unfold State.leaveTo
  split
  · exact enterDisabled s g
  · exact setEngine ..

theorem afterPulse (s : State) (g : Seg) (n : Nat) (hub sda : Bool) : WorkStands s (s.afterPulse g n hub sda) := by
  unfold State.afterPulse
  split
  · exact setEngine ..
  · split
    · exact setEngine ..
    · split
      · exact setEngine ..
      · exact enterFaulted ..

theorem handOutcome (s : State) (g : Seg) (c : Carrier) (e : Ending) : WorkStands s (s.handOutcome g c e) := by
  unfold State.handOutcome
  split
  · split
    · exact completeReq ..
    · exact .refl s
  · exact completePoll ..
  · exact .refl s

theorem endTransaction (s : State) (g : Seg) (x : Transaction) (e : Ending) :
    WorkStands s (s.endTransaction g x e) :=
  (((setEngine ..).trans (setEngine ..)).trans (handOutcome ..)).trans (leaveTo ..)

theorem conflict (s : State) (g : Seg) (x : Transaction) (acks : List Bool) : WorkStands s (s.conflict g x acks) :=
  ((setEngine ..).trans (handOutcome ..)).trans (leaveTo ..)

theorem expireLimit (s : State) (g : Seg) (x : Transaction) (acks : List Bool) :
    WorkStands s (s.expireLimit g x acks) := by
  unfold State.expireLimit
  dsimp only
  split
  · exact ((setEngine ..).trans (handOutcome ..)).trans (enterDisabled ..)
  · exact ((setEngine ..).trans (handOutcome ..)).trans (tryRecovery ..)

theorem segmentDisable (s : State) (g : Seg) : WorkStands s (s.segmentDisable g).state := by
  unfold State.segmentDisable
  split
  · exact .refl s
  iterate 4
    · exact enterDisabled s g
  iterate 3
    · exact setEngine ..

theorem segmentRestore (s : State) (g : Seg) : WorkStands s (s.segmentRestore g).state := by
  unfold State.segmentRestore
  split
  · exact (setEngine ..).trans (segmentNotice ..)
  · exact .refl s

/-! ### Arbitration and resets -/

theorem grant (s : State) (g : Seg) (c : Candidate) : WorkStands s (s.grant g c) := by
  cases c with
  | request p r => exact (setReqState ..).trans (setEngine ..)
  | poll n =>
    refine (trans (of_keeps (setDue_keeps ..)) (setPoll ?_)).trans (setEngine ..)
    rfl

theorem runDecision (g : Seg) (fuel : Nat) : ∀ s : State, WorkStands s (State.runDecision g fuel s) := by
  induction fuel with
  | zero => exact .refl
  | succ fuel ih =>
    intro s
    have harbiter (a : Arbiter) : WorkStands s (s.setArbiter g a) := of_keeps (setArbiter_keeps ..)
    unfold State.runDecision
    split
    · exact .refl s
    · split
      · exact .refl s
      · split
        · exact ((harbiter _).trans (completeReq ..)).trans (ih _)
        · exact (harbiter _).trans (grant ..)
      · exact (harbiter _).trans (grant ..)

theorem resetPort (s : State) (p : Port) : WorkStands s (s.resetPort p) := by
  refine of_ports (resetPort_keeps ..) fun q => .of_subset ?_
  by_cases hq : q = p
  · subst hq
    rw [resetPort_reqs_self]
    exact List.nil_subset _
  · rw [resetPort_port_other s hq, foldl_addNotices_reqs]
    exact grantAll_reqs_subset ..

theorem hubReset (s : State) : WorkStands s s.hubReset where
  reqs q := by
    have hempty : (s.hubReset.port q).reqs = [] := congrArg PortState.reqs ((hubReset_effects s).ports q)
    rw [hempty]
    exact .of_subset (List.nil_subset _)
  config n := by rw [(hubReset_effects s).polls n]

end WorkStands

end State

end Sys2Proof.Machine
end

section
/-! PROOF. The bounds of the costs under every command (R2, R81, R113). -/

namespace Sys2Proof.Machine

set_option Elab.async false

open State

namespace State

variable {s t : State} {p : Port}

/-! ### Frames and events -/

namespace WorkStands

theorem noFrame (s : State) (p : Port) : WorkStands s (s.noFrame p) := modifyPort_eq rfl

theorem setPrst (s : State) (p : Port) (low : Bool) : WorkStands s (s.setPrst p low) := modifyPort_eq rfl

theorem takeFrame {k : Option FrameKind} {n : Nat} {act : State → Answer}
    (hact : WorkStands (s.noFrame p) (act (s.noFrame p)).state) : WorkStands s (Machine.takeFrame p k n act s) := by
  unfold Machine.takeFrame
  split
  · exact ((noFrame s p).trans hact).trans (modifyPort_eq rfl)
  · exact .refl s

theorem claimedFrame {n : Nat} {b : Byte} {k : FrameKind} {act : State → Fin n → Answer}
    (hact : ∀ s i, WorkStands s (act s i).state) : WorkStands s (Machine.claimedFrame p k b act s) := by
  unfold Machine.claimedFrame frameOf
  refine takeFrame ?_
  unfold withClaim withIndex
  split
  · split
    · exact hact _ _
    · exact .refl _
  · exact .refl _

theorem frameEnd {k : FrameKind} {act : Snapshot → State → State} (hact : ∀ x s, WorkStands s (act x s)) :
    WorkStands s (Machine.frameEnd p k act s) := by
  unfold Machine.frameEnd
  split
  · split
    · exact (noFrame s p).trans (hact _ _)
    · exact .refl s
  · exact .refl s

theorem hubEvent {act : State → State} (hact : WorkStands s (act s)) : WorkStands s (Machine.hubEvent act s) := by
  unfold Machine.hubEvent
  split
  · exact .refl s
  · exact hact

end WorkStands

/-! ### The commands -/

/-- A command that can open a request or configure a poll entry: SUBMIT, POLL SET and the rise of RESETN. -/
def bringsWork : Instr → Bool
  | .submit _ _ | .pollSet _ _ | .resetnRise _ _ _ => true
  | _ => false

theorem exec_workStands {c : Instr} (hc : bringsWork c = false) (e : exec c s = .next t) : WorkStands s t := by
  cases c with
  | submit | pollSet | resetnRise => cases hc
  | cancel p tag => exact (WorkStands.takeFrame (.cancelReq _ p tag)).next e
  | routeSet p f => exact (WorkStands.claimedFrame fun s i => .routeSet s i f).next e
  | routeClear p b => exact (WorkStands.claimedFrame .routeClear).next e
  | pollStart p b => exact (WorkStands.claimedFrame .pollStart).next e
  | pollStop p b => exact (WorkStands.claimedFrame .pollStop).next e
  | segmentDisable p b => exact (WorkStands.claimedFrame .segmentDisable).next e
  | segmentRestore p b => exact (WorkStands.claimedFrame .segmentRestore).next e
  | portResetNormalEnd p => exact (WorkStands.frameEnd fun _ s => .resetPort s p).next e
  | hubResetNormalEnd p =>
    refine (WorkStands.frameEnd fun x s => ?_).next e
    split
    · exact .hubReset s
    · exact .refl s
  | prstxnFall p =>
    refine WorkStands.next ?_ e
    split
    · exact (WorkStands.resetPort s p).trans (.setPrst _ p true)
    · exact .setPrst s p true
  | arbiterDecision g =>
    refine (WorkStands.hubEvent ?_).next e
    split
    · exact .runDecision g _ s
    · exact .refl s
  | holdSettlement p g =>
    refine (WorkStands.hubEvent ?_).next e
    split
    · exact .settleHold s p _
    · exact .refl s
  | releaseSettlement p g =>
    refine (WorkStands.hubEvent ?_).next e
    split
    · exact .settleRelease s p _
    · exact .refl s
  | holdDecrease i => exact (WorkStands.hubEvent (.decreaseHold s i)).next e
  | holdExpiry i =>
    refine (WorkStands.hubEvent ?_).next e
    split
    · split
      · exact .expire s i
      · exact .refl s
    · exact .refl s
  | transactionEnd g acks data =>
    refine (WorkStands.hubEvent ?_).next e
    split
    · split
      · exact .refl s
      · exact .endTransaction s g _ _
    · exact .refl s
  | lineConflict g acks =>
    refine (WorkStands.hubEvent ?_).next e
    split
    · exact .conflict s g _ acks
    · exact .refl s
  | timeout g acks =>
    refine (WorkStands.hubEvent ?_).next e
    split
    · exact .expireLimit s g _ acks
    · exact .refl s
  | cutEnd g =>
    refine (WorkStands.hubEvent ?_).next e
    split
    · split
      · exact .leaveTo s g _
      all_goals exact .refl s
    · exact .refl s
  | limitWindowEnd g =>
    refine (WorkStands.hubEvent ?_).next e
    split
    · exact .tryRecovery s g
    · exact .refl s
  | recoverySclTimeout g =>
    refine (WorkStands.hubEvent ?_).next e
    split
    · split
      · exact .enterDisabled s g
      · exact .enterFaulted s g _
    · exact .refl s
  | recoveryPulseEnd g sda =>
    refine (WorkStands.hubEvent ?_).next e
    split
    · split
      · exact .enterDisabled s g
      · exact .afterPulse s g _ _ sda
    · exact .refl s
  | recoveryStopEnd g =>
    refine (WorkStands.hubEvent ?_).next e
    split
    · exact .leaveTo s g _
    · exact .refl s
  | pollCountdown n => exact (WorkStands.hubEvent (.countdown s n)).next e
  | pollDue n =>
    refine (WorkStands.hubEvent ?_).next e
    split
    · exact .becomeDue s n
    · exact .refl s
  | ageIncrease =>
    refine (WorkStands.hubEvent (.mapPolls ?_)).next e
    exact fun _ => rfl
  | lineLowInIdle | freeWindowComplete | freeWindowRestart | recoverySclHigh =>
    exact .of_keeps (exec_keeps e) (by simp [changes]) (by simp [changes])
  | _ => exact .of_calm (exec_calm rfl e) (exec_keeps e) (by simp [changes])

/-! ### New work fits the bounds (R2, R6, R113) -/

theorem CostsBounded.addOpen (h : CostsBounded s) {r : Request} (hdata : r.writeData.length ≤ 32)
    (hlen : r.readLen ≤ 32) : CostsBounded (s.addOpen p r) := by
  obtain ⟨hreqs, hpolls⟩ := h
  refine ⟨fun q x hx => ?_, hpolls⟩
  rw [State.addOpen, modifyPort_port] at hx
  split at hx
  · rcases List.mem_append.mp hx with hx | hx
    · exact hreqs _ x hx
    · obtain rfl := List.mem_singleton.mp hx
      exact ⟨hdata, hlen⟩
  · exact hreqs q x hx

theorem lengths_of_lengthsMatch {kind w r : Nat} (h : lengthsMatch kind w r = true) : w ≤ 32 ∧ r ≤ 32 := by
  simp only [lengthsMatch, Bool.or_eq_true, Bool.and_eq_true, beq_iff_eq, decide_eq_true_eq] at h
  omega

/-- Admission records lengths that check 2 passes (R6). -/
theorem recorded_lengths {f : SubmitFields} (h : s.submitCode p f = none) :
    (s.recorded f).writeData.length ≤ 32 ∧ (s.recorded f).readLen ≤ 32 :=
  lengths_of_lengthsMatch (check_passes h
    (c := (lengthsMatch f.kind.toNat f.data.length f.readLen.toNat, .badLength)) (by simp [submitChecks]))

theorem pollConfigOf_readLen {f : PollFields} {c : PollConfig} (h : pollConfigOf f = some c) : c.readLen ≤ 8 := by
  unfold pollConfigOf at h
  split at h
  · obtain ⟨⟨-, hlen, -⟩, hc⟩ := Option.ite_none_right_eq_some.mp h
    obtain rfl := Option.some.inj hc
    exact hlen
  · cases h

theorem CostsBounded.pollSet (h : CostsBounded s) (n : PollIdx) (f : PollFields) :
    CostsBounded (s.pollSet n f).state := by
  unfold State.pollSet
  split
  · exact h
  · next c hc =>
    split
    · obtain ⟨hreqs, hpolls⟩ := h
      refine ⟨hreqs, fun m => ?_⟩
      dsimp only
      rw [setPoll_poll]
      split
      · exact pollConfigOf_readLen hc
      · exact hpolls m
    · exact h

theorem CostsBounded.takeFrame (h : CostsBounded s) {k : Option FrameKind} {n : Nat} {act : State → Answer}
    (hact : CostsBounded (act (s.noFrame p)).state) : CostsBounded (Machine.takeFrame p k n act s) := by
  unfold Machine.takeFrame
  split
  · exact hact.stands (.modifyPort_eq rfl)
  · exact h

theorem CostsBounded.exec (h : CostsBounded s) {c : Instr} (e : Machine.exec c s = .next t) : CostsBounded t := by
  cases hc : bringsWork c with
  | false => exact h.stands (exec_workStands hc e)
  | true =>
    have hframe (p : Port) : CostsBounded (s.noFrame p) := h.stands (.noFrame s p)
    cases c with
    | submit p f =>
      obtain rfl := Host.Outcome.next.inj e
      refine h.takeFrame ?_
      split
      · next r hr =>
        obtain ⟨hcode, rfl⟩ := admission_ok hr
        obtain ⟨hdata, hlen⟩ := recorded_lengths hcode
        exact (hframe p).addOpen hdata hlen
      · exact hframe p
    | pollSet p f =>
      obtain rfl := Host.Outcome.next.inj e
      refine h.takeFrame ?_
      unfold withClaim withIndex
      split
      · split
        · exact (hframe p).pollSet _ f
        · exact hframe p
      · exact hframe p
    | resetnRise a b c =>
      obtain ⟨u, hu, hvalues⟩ := exec_resetnRise_values s #v[a, b, c]
      obtain rfl := Host.Outcome.next.inj (hu.symm.trans e)
      exact hvalues.costsBounded
    | _ => cases hc

end State

end Sys2Proof.Machine
end

section
/-! PROOF. The bounds of every arbiter, under each change of it and every step (R71, R82, R83, R84, R87). -/

namespace Sys2Proof.Machine

set_option Elab.async false

open State

variable {a : Arbiter} {c : Contender}

namespace State

/-! ### What a change leaves of the bounds of one arbiter -/

/-- Deficits that do not grow stay within their bounds. -/
theorem ArbiterSound.lower (h : ArbiterSound a) {d : Vector Nat 4} (hle : ∀ c : Contender, d[c] ≤ a.deficits[c]) :
    ArbiterSound { a with deficits := d } := by
  obtain ⟨hranking, hbounds, hpriority⟩ := h
  refine ⟨hranking, fun c => ?_, fun hmode => ?_⟩
  · obtain ⟨hlow, hhigh, hmax, hother⟩ := hbounds c
    exact ⟨hlow, hhigh, (hle c).trans hmax, fun hc => (hle c).trans (hother hc)⟩
  · obtain ⟨hcurrent, hzero⟩ := hpriority hmode
    exact ⟨hcurrent, fun c => Nat.le_zero.mp (hzero c ▸ hle c)⟩

theorem ArbiterSound.charge (h : ArbiterSound a) (c : Contender) (k : Nat) : ArbiterSound (charge a c k) := by
  rw [charge_eq]
  split
  · refine h.lower fun x => ?_
    rw [set_getElem]
    split
    · next hx => rw [hx]; exact Nat.sub_le ..
    · exact le_rfl
  · exact h

/-- A port reset clears the deficit of its port (R87, R160). -/
theorem ArbiterSound.clearPort (h : ArbiterSound a) (p : Port) :
    ArbiterSound { a with deficits := a.deficits.set p.val 0 (by omega) } :=
  h.lower fun x => by
    have hset : (a.deficits.set p.val 0 (by omega))[x] = _ := set_getElem x (p.castSucc) 0
    rw [hset]
    split
    · exact Nat.zero_le _
    · exact le_rfl

theorem zeros_getElem (c : Contender) : (#v[0, 0, 0, 0] : Vector Nat 4)[c] = 0 := by
  revert c
  decide

/-- With all deficits at 0 and port 0 current, ranking and quanta are what is left to bound. -/
theorem arbiterSound_of_zeros {mode : ArbMode} {ranking : Vector Contender 4} {quanta : Vector Nat 4}
    (hranking : ranking.toList.Nodup) (hquanta : ∀ c : Contender, 8 ≤ quanta[c] ∧ quanta[c] ≤ 255) :
    ArbiterSound ⟨mode, ranking, quanta, #v[0, 0, 0, 0], 0⟩ := by
  refine ⟨hranking, fun c => ?_, fun _ => ⟨rfl, zeros_getElem⟩⟩
  obtain ⟨hlow, hhigh⟩ := hquanta c
  refine ⟨hlow, hhigh, ?_, fun _ => ?_⟩ <;> simp only [zeros_getElem, Nat.zero_le]

theorem ArbiterSound.hubReset (h : ArbiterSound a) : ArbiterSound a.hubReset := by
  obtain ⟨hranking, hbounds, -⟩ := h
  exact arbiterSound_of_zeros hranking fun c => ⟨(hbounds c).1, (hbounds c).2.1⟩

/-! ### SEGMENT SET (R84) -/

/-- The ranking and the quanta that check 3 lets pass are those of R71. -/
theorem config_bounds {f : SegmentFields} {x : SegmentConfig} (h : segmentConfigOf f = some x) :
    x.ranking.toList.Nodup ∧ ∀ c : Contender, 8 ≤ x.quanta[c] ∧ x.quanta[c] ≤ 255 := by
  obtain ⟨⟨-, -, -, -, -, -, -, hbytes, hq0, hq1, hq2, hq3⟩, hcarries⟩ := segmentConfigOf_some h
  have hnumbers : [f.rank1.toNat, f.rank2.toNat, f.rank3.toNat, f.rank4.toNat].Nodup :=
    hbytes.map fun _ _ => BitVec.eq_of_toNat_eq
  have hbyte (b : Byte) : b.toNat ≤ 255 := Nat.le_of_lt_succ b.isLt
  refine ⟨.of_map Fin.val (hcarries.ranking ▸ hnumbers), fun c => ?_⟩
  rw [hcarries.quanta]
  match c with
  | 0 => exact ⟨hq0, hbyte _⟩
  | 1 => exact ⟨hq1, hbyte _⟩
  | 2 => exact ⟨hq2, hbyte _⟩
  | 3 => exact ⟨hq3, hbyte _⟩

theorem ArbiterSound.configured (h : ArbiterSound a) {f : SegmentFields} {x : SegmentConfig}
    (hx : segmentConfigOf f = some x) : ArbiterSound (a.configured x) := by
  obtain ⟨hranking, hquanta⟩ := config_bounds hx
  by_cases hsame : x.mode = a.mode
  · obtain ⟨-, hbounds, hpriority⟩ := h
    cases hmode : a.mode with
    | priority =>
      obtain ⟨hcurrent, hzero⟩ := hpriority hmode
      rw [configured_of_priority hsame hmode]
      refine ⟨hranking, fun c => ?_, fun _ => ⟨hcurrent, hzero⟩⟩
      obtain ⟨hlow, hhigh⟩ := hquanta c
      exact ⟨hlow, hhigh, by simp only [hzero c, Nat.zero_le], fun _ => by simp only [hzero c, Nat.zero_le]⟩
    | deficit =>
      rw [configured_of_deficit hsame hmode]
      refine ⟨hranking, fun c => ?_, fun hm => by simp [hmode] at hm⟩
      obtain ⟨hlow, hhigh⟩ := hquanta c
      obtain ⟨-, -, -, hother⟩ := hbounds c
      have hmin : (Vector.ofFn fun i : Contender => min a.deficits[i] (x.quanta[i] + 64))[c] =
          min a.deficits[c] (x.quanta[c] + 64) := by simp
      exact ⟨hlow, hhigh, hmin ▸ Nat.min_le_right .., fun hc => hmin ▸ (Nat.min_le_left ..).trans (hother hc)⟩
  · rw [configured_of_mode_ne hsame]
    exact arbiterSound_of_zeros hranking hquanta

/-! ### A decision (R82, R83) -/

/-- The bounds of the deficits while contender `c` is current (R83). -/
def DeficitsFit (quanta d : Vector Nat 4) (c : Contender) : Prop :=
  ∀ x : Contender, d[x] ≤ quanta[x] + 64 ∧ (x ≠ c → d[x] ≤ 64)

variable {costs : Vector (Option Nat) 4} {quanta d d' : Vector Nat 4} {c' : Contender}

/-- A contender that becomes current with 64 at most gains its quantum at most. -/
theorem deficitsFit_arrive (h : ∀ x : Contender, d[x] ≤ 64) (c : Contender) :
    DeficitsFit quanta (State.arrive costs quanta d c) c := by
  intro x
  have hx := h x
  rw [arrive_getElem]
  split
  · next hc => exact ⟨by omega, fun hne => absurd hc.1.symm hne⟩
  · exact ⟨by omega, fun _ => hx⟩

/-- A current contender gives up its turn with less than its candidate costs, or with nothing (R82 step 2). -/
theorem Rotation.deficitsFit (hcosts : ∀ (c : Contender) (k : Nat), costs[c] = some k → k ≤ 65)
    (h : Rotation costs quanta d c d' c') (hfit : DeficitsFit quanta d c) : DeficitsFit quanta d' c' := by
  induction h with
  | wins => exact hfit
  | @tooCostly d _ c _ k hk hshort _ ih =>
    refine ih (deficitsFit_arrive (fun x => ?_) _)
    by_cases hx : x = c
    · have hle := hcosts c k hk
      rw [hx]
      omega
    · exact (hfit x).2 hx
  | @noCandidate d _ c _ hnone _ ih =>
    refine ih (deficitsFit_arrive (fun x => ?_) _)
    rw [set_getElem]
    split
    · exact Nat.zero_le _
    · next hx => exact (hfit x).2 (Ne.symm hx)

variable {s t : State} {g : Seg} {p : Port}

/-- The arbiter that a decision leaves before the win is charged is within its bounds. -/
theorem DeficitBounds.winner (h : DeficitBounds s) (hw : s.winner g = some (c, a)) : ArbiterSound a := by
  obtain ⟨hcosts, harbiters⟩ := h
  have hsome : ∃ c, s.candidate g c ≠ none := by
    by_contra hnone
    push Not at hnone
    cases (winner_of_no_candidate hnone).symm.trans hw
  cases hmode : (s.arbiter g).mode with
  | priority =>
    rw [winner_of_priority hmode hsome] at hw
    obtain ⟨x, -, hx⟩ := Option.map_eq_some_iff.mp hw
    cases hx
    exact harbiters g
  | deficit =>
    rw [winner_of_deficit hmode hsome] at hw
    obtain ⟨⟨d, x⟩, hrotate, hx⟩ := Option.map_eq_some_iff.mp hw
    cases hx
    obtain ⟨hranking, hbounds, -⟩ := harbiters g
    have hfit := (rotation_of_rotate hrotate).deficitsFit (fun _ _ => costs_le hcosts)
      fun x => (hbounds x).2.2
    refine ⟨hranking, fun x => ?_, fun hm => by simp [hmode] at hm⟩
    obtain ⟨hlow, hhigh, -⟩ := hbounds x
    exact ⟨hlow, hhigh, hfit x⟩

theorem DeficitBounds.stands (h : DeficitBounds s) (k : WorkStands s t) (ha : ∀ g, t.arbiter g = s.arbiter g) :
    DeficitBounds t := ⟨h.1.stands k, fun g => ha g ▸ h.2 g⟩

theorem DeficitBounds.setArbiter (h : DeficitBounds s) (ha : ArbiterSound a) : DeficitBounds (s.setArbiter g a) := by
  obtain ⟨hcosts, harbiters⟩ := h
  refine ⟨hcosts.stands (.of_keeps (setArbiter_keeps ..)), fun k => ?_⟩
  rw [setArbiter_arbiter]
  split
  · exact ha
  · exact harbiters k

theorem DeficitBounds.runDecision (g : Seg) (fuel : Nat) : ∀ {s : State}, DeficitBounds s →
    DeficitBounds (State.runDecision g fuel s) := by
  induction fuel with
  | zero => exact fun h => h
  | succ fuel ih =>
    intro s h
    have hgrant (a : Arbiter) (ha : ArbiterSound a) (x : Candidate) : DeficitBounds ((s.setArbiter g a).grant g x) :=
      (h.setArbiter ha).stands (.grant ..) (grant_keeps ..).arbiter
    unfold State.runDecision
    split
    · exact h
    · next c a hw =>
      have ha := h.winner hw
      split
      · exact h
      · split
        · exact ih ((h.setArbiter ha).stands (.completeReq ..) (completeReq_keeps ..).arbiter)
        · exact hgrant _ (ha.charge c _) _
      · exact hgrant _ (ha.charge c _) _

/-! ### Every command -/

/-- The bounds of every arbiter (R71, R83). -/
def ArbitersSound (s : State) : Prop := ∀ g, ArbiterSound (s.arbiter g)

theorem ArbitersSound.keeps {l : List Part} (h : ArbitersSound s) (k : Keeps s t l) (m : .arbiters ∉ l := by decide) :
    ArbitersSound t := fun g => k.arbiter g m ▸ h g

theorem ArbitersSound.frameEnd (h : ArbitersSound s) {k : FrameKind} {act : Snapshot → State → State}
    (hact : ∀ x, ArbitersSound (act x (s.noFrame p))) : ArbitersSound (Machine.frameEnd p k act s) := by
  unfold Machine.frameEnd
  split
  · split
    · exact hact _
    · exact h
  · exact h

theorem ArbitersSound.resetPort (h : ArbitersSound s) (p : Port) : ArbitersSound (s.resetPort p) := fun g =>
  resetPort_arbiter s p g ▸ (h g).clearPort p

theorem ArbitersSound.hubReset (h : ArbitersSound s) : ArbitersSound s.hubReset := fun g =>
  (hubReset_effects s).arbiters g ▸ (h g).hubReset

theorem ArbitersSound.segmentSet (h : ArbitersSound s) (g : Seg) (f : SegmentFields) :
    ArbitersSound (s.segmentSet g f).state := by
  cases hx : segmentConfigOf f with
  | none =>
    rw [segmentSet_badValue s g hx]
    exact h
  | some x =>
    rw [segmentSet_ok s g hx]
    intro k
    dsimp only
    rw [setArbiter_arbiter]
    split
    · exact (h g).configured hx
    · exact h k

theorem ArbitersSound.claimedSegmentSet (h : ArbitersSound s) (p : Port) (f : SegmentFields) :
    ArbitersSound (claimedFrame p .segmentSet f.segment (fun s g => s.segmentSet g f) s) := by
  have hframe : ArbitersSound (s.noFrame p) := h.keeps (noFrame_keeps ..)
  cases hrun : s.running p with
  | false =>
    rw [claimedFrame, frameOf_not_running hrun]
    exact h
  | true =>
    rw [claimedFrame, frameOf_running hrun]
    refine ArbitersSound.keeps ?_ (answers_keeps ..)
    unfold withClaim withIndex
    split
    · split
      · exact hframe.segmentSet _ f
      · exact hframe
    · exact hframe

/-- Every command but a decision changes the arbiters as SEGMENT SET and the resets do, or not at all. -/
theorem ArbitersSound.exec (h : ArbitersSound s) {c : Instr} (hc : ∀ g, c ≠ .arbiterDecision g)
    (e : Machine.exec c s = .next t) : ArbitersSound t := by
  have hkeeps := exec_keeps e
  cases c with
  | arbiterDecision g => exact absurd rfl (hc g)
  | segmentSet p f =>
    obtain rfl := Host.Outcome.next.inj ((exec_segmentSet s p f).symm.trans e)
    exact h.claimedSegmentSet p f
  | portResetNormalEnd p =>
    obtain rfl := Host.Outcome.next.inj e
    exact h.frameEnd fun _ => ArbitersSound.resetPort (h.keeps (noFrame_keeps ..)) p
  | hubResetNormalEnd p =>
    obtain rfl := Host.Outcome.next.inj e
    refine h.frameEnd fun x => ?_
    have hframe : ArbitersSound (s.noFrame p) := h.keeps (noFrame_keeps ..)
    split
    · exact hframe.hubReset
    · exact hframe
  | prstxnFall p =>
    obtain rfl := Host.Outcome.next.inj e
    split
    · exact (h.resetPort p).keeps (modifyPort_keeps ..)
    · exact h.keeps (modifyPort_keeps ..)
  | resetnRise a b c =>
    obtain ⟨u, hu, hvalues⟩ := exec_resetnRise_values s #v[a, b, c]
    obtain rfl := Host.Outcome.next.inj (hu.symm.trans e)
    exact hvalues.deficitBounds.2
  | _ =>
    dsimp only [changes] at hkeeps
    exact h.keeps hkeeps

theorem DeficitBounds.exec (h : DeficitBounds s) {c : Instr} (e : Machine.exec c s = .next t) : DeficitBounds t := by
  by_cases hc : ∃ g, c = .arbiterDecision g
  · obtain ⟨g, rfl⟩ := hc
    obtain rfl := Host.Outcome.next.inj e
    unfold hubEvent
    split
    · exact h
    · dsimp only
      split
      · exact h.runDecision g _
      · exact h
  · push Not at hc
    obtain ⟨hcosts, harbiters⟩ := h
    exact ⟨hcosts.exec e, ArbitersSound.exec harbiters hc e⟩

/-- What an idle hub does touches no request, poll configuration or arbiter (log 1). -/
theorem DeficitBounds.idle (h : DeficitBounds s) : DeficitBounds s.idle := by
  unfold State.idle
  split
  · exact h
  · split
    · have hkeeps := (countMark_keeps s).mono.trans (enqueue_keeps s.countMark s.countMark.markEvents).mono
        (l := [.engines, .tenth, .pending, .freeCount])
      exact h.stands (.of_keeps hkeeps) hkeeps.arbiter
    · exact h.stands (.of_keeps (enqueue_keeps ..)) (enqueue_keeps ..).arbiter

end State

/-- Settles O55: a deficit gains its quantum only when its contender becomes current, with 64 at most, and every other
change lowers it or sets the arbiter's fields anew. -/
theorem stepKeepsDeficitBounds : Obligations.StepKeepsDeficitBounds := by
  intro s t h e
  unfold step at e
  split at e
  · obtain rfl := Host.Outcome.next.inj e
    exact h.idle
  · next rest _ => exact DeficitBounds.exec (s := { s with pending := rest }) h e

end Sys2Proof.Machine
end

section
/-! PROOF. SEGMENT DISABLE, SEGMENT RESTORE and STATS CLEAR (R103, R105, R108). -/

namespace Sys2Proof.Machine

set_option Elab.async false

open State

/-- The engine is ACTIVE or gives a recovery pulse or stop: a disable waits until it may stop (R103). -/
def EngineState.stopsLater : EngineState → Bool
  | .active _ | .recovering (.pulse _) _ _ | .recovering .stop _ _ => true
  | .idle | .checking _ _ | .recovering .waitScl _ _ | .faulted | .disabled => false

/-! ### The frames -/

theorem exec_segmentDisable (s : State) (p : Port) (b : Byte) : exec (.segmentDisable p b) s =
    .next (claimedFrame p .segmentDisable b (fun s g => s.segmentDisable g) s) := rfl

theorem exec_segmentRestore (s : State) (p : Port) (b : Byte) : exec (.segmentRestore p b) s =
    .next (claimedFrame p .segmentRestore b (fun s g => s.segmentRestore g) s) := rfl

theorem exec_statsClear (s : State) (p : Port) (b : Byte) : exec (.statsClear p b) s =
    .next (claimedFrame p .statsClear b
      (fun s g => ⟨s.setEngine g { s.engine g with stats := .zero }, answer .statsClear .ok, .none⟩) s) := rfl

variable {s : State} {p : Port} {b : Byte} {g : Seg}

/-! ### What they do to the engine -/

namespace State

theorem segmentDisable_of_disabled (h : (s.engine g).state = .disabled) :
    s.segmentDisable g = refuse s .segmentDisable .alreadyOffline := by
  rw [segmentDisable, h]

theorem segmentDisable_now (h : (s.engine g).state.stopsLater = false) (hon : (s.engine g).state ≠ .disabled) :
    s.segmentDisable g = ⟨s.enterDisabled g, answer .segmentDisable .ok, .none⟩ := by
  unfold segmentDisable
  cases hs : (s.engine g).state with
  | idle | checking | faulted => rfl
  | recovering step marks hub =>
    rw [hs] at h
    cases step with
    | waitScl => rfl
    | pulse | stop => cases h
  | active x =>
    rw [hs] at h
    cases h
  | disabled => exact absurd hs hon

theorem segmentDisable_later (h : (s.engine g).state.stopsLater = true) :
    s.segmentDisable g = ⟨s.disableLater g, answer .segmentDisable .ok, .none⟩ := by
  unfold segmentDisable
  cases hs : (s.engine g).state with
  | active x => rfl
  | recovering step marks hub =>
    rw [hs] at h
    cases step with
    | pulse | stop => rfl
    | waitScl => cases h
  | idle | checking | faulted | disabled =>
    rw [hs] at h
    cases h

theorem offline_iff : s.offline g = true ↔ (s.engine g).state = .faulted ∨ (s.engine g).state = .disabled := by
  unfold State.offline
  cases (s.engine g).state <;> simp

end State

/-! ### The frames with the claim -/

/-- With the claim an index above the range is BAD_INDEX (R151, R166). -/
theorem claimedFrame_of_le {n : Nat} {k : FrameKind} {act : State → Fin n → Answer} (hrun : s.running p = true)
    (hclaim : (s.sem 0).owner = some p) (hb : n ≤ b.toNat) :
    claimedFrame p k b act s = s.answers p k (answer k .badIndex) := by
  rw [claimedFrame_claimed hclaim, indexedFrame_of_le hrun hb]

theorem exec_segmentDisable_now (hrun : s.running p = true) (hclaim : (s.sem 0).owner = some p) (hb : b.toNat = g.val)
    (h : (s.engine g).state.stopsLater = false) (hon : (s.engine g).state ≠ .disabled) :
    exec (.segmentDisable p b) s = .next (((s.noFrame p).enterDisabled g).answers p .segmentDisable [0x00]) := by
  rw [exec_segmentDisable, claimedFrame_acts hrun hclaim g hb, segmentDisable_now (s := s.noFrame p) h hon]
  rfl

theorem exec_segmentDisable_later (hrun : s.running p = true) (hclaim : (s.sem 0).owner = some p)
    (hb : b.toNat = g.val) (h : (s.engine g).state.stopsLater = true) : exec (.segmentDisable p b) s =
      .next ((s.setEngine g { s.engine g with disablePending := true }).answers p .segmentDisable [0x00]) := by
  rw [exec_segmentDisable, claimedFrame_acts hrun hclaim g hb, segmentDisable_later (s := s.noFrame p) h]
  exact congrArg Host.Outcome.next (noFrame_answers (s.disableLater g) p _ _ _)

theorem exec_segmentRestore_offline (hrun : s.running p = true) (hclaim : (s.sem 0).owner = some p)
    (hb : b.toNat = g.val) (h : s.offline g = true) : exec (.segmentRestore p b) s =
      .next ((((s.noFrame p).setEngine g { s.engine g with state := .checking 0 0, tries := 0 }).segmentNotice
        g).answers p .segmentRestore [0x00]) := by
  have hoff : (s.noFrame p).offline g = true := h
  rw [exec_segmentRestore, claimedFrame_acts hrun hclaim g hb, segmentRestore, if_pos hoff]
  rfl

theorem exec_segmentRestore_online (hrun : s.running p = true) (hclaim : (s.sem 0).owner = some p)
    (hb : b.toNat = g.val) (h : s.offline g ≠ true) :
    exec (.segmentRestore p b) s = .next (s.answers p .segmentRestore [0x19]) := by
  have hon : (s.noFrame p).offline g ≠ true := h
  rw [exec_segmentRestore, claimedFrame_acts hrun hclaim g hb, segmentRestore, if_neg hon]
  exact congrArg Host.Outcome.next (noFrame_answers s p _ _ _)

theorem exec_statsClear_acts (hrun : s.running p = true) (hclaim : (s.sem 0).owner = some p) (hb : b.toNat = g.val) :
    exec (.statsClear p b) s =
      .next ((s.setEngine g { s.engine g with stats := ⟨0, 0, 0, 0, 0, 0, 0⟩ }).answers p .statsClear [0x00]) := by
  rw [exec_statsClear, claimedFrame_acts hrun hclaim g hb]
  exact congrArg Host.Outcome.next
    (noFrame_answers (s.setEngine g { s.engine g with stats := ⟨0, 0, 0, 0, 0, 0, 0⟩ }) p _ _ _)

/-- Settles O34: the claim and the index are checked first; then SEGMENT DISABLE and SEGMENT RESTORE act by the engine's
state. -/
theorem segmentDisableRestoreAndStatsClear : Obligations.SegmentDisableRestoreAndStatsClear := by
  refine ⟨fun s p b hrun => ⟨fun hclaim => ?_, fun hclaim => ⟨fun hb => ?_, fun g hb => ?_⟩⟩,
    fun s p b hrun => ⟨fun hclaim => ⟨?_, ?_⟩, fun hclaim => ⟨fun hb => ⟨?_, ?_⟩, fun g hb => ⟨fun hoff => ?_,
      fun hfaulted hdisabled => ?_, exec_statsClear_acts hrun hclaim hb⟩⟩⟩⟩
  · rw [exec_segmentDisable, claimedFrame_unclaimed hrun hclaim]
    rfl
  · rw [exec_segmentDisable, claimedFrame_of_le hrun hclaim hb]
    rfl
  · have hnow {st : EngineState} (hst : st.stopsLater = false) (hon : st ≠ .disabled) (hs : (s.engine g).state = st) :=
      exec_segmentDisable_now (g := g) hrun hclaim hb (hs ▸ hst) (hs ▸ hon)
    have hlater {st : EngineState} (hst : st.stopsLater = true) (hs : (s.engine g).state = st) :=
      exec_segmentDisable_later (g := g) hrun hclaim hb (hs ▸ hst)
    refine ⟨fun hs => ?_, hnow rfl nofun, fun _ _ => hnow rfl nofun, hnow rfl nofun, fun _ _ => hnow rfl nofun,
      fun _ => hlater rfl, fun _ _ _ => hlater rfl, fun _ _ => hlater rfl⟩
    rw [exec_segmentDisable, claimedFrame_acts hrun hclaim g hb, segmentDisable_of_disabled (s := s.noFrame p) hs]
    exact congrArg Host.Outcome.next (noFrame_answers s p _ _ _)
  · rw [exec_segmentRestore, claimedFrame_unclaimed hrun hclaim]
    rfl
  · rw [exec_statsClear, claimedFrame_unclaimed hrun hclaim]
    rfl
  · rw [exec_segmentRestore, claimedFrame_of_le hrun hclaim hb]
    rfl
  · rw [exec_statsClear, claimedFrame_of_le hrun hclaim hb]
    rfl
  · exact exec_segmentRestore_offline hrun hclaim hb (offline_iff.mpr hoff)
  · exact exec_segmentRestore_online hrun hclaim hb fun hoff => (offline_iff.mp hoff).elim hfaulted hdisabled

end Sys2Proof.Machine
end

section
/-! PROOF. How the engine leaves a transaction: by its end, a LINE_CONFLICT, a TIMEOUT or the end of a cut (R94, R95,
R96, R99, R104, R109). -/

namespace Sys2Proof.Machine

set_option Elab.async false

open State

namespace State

variable {s : State} {g : Seg} {x : Transaction}

/-! ### Engine transitions (R99, R103, R108) -/

@[simp] theorem handOutcome_engine (s : State) (g : Seg) (c : Carrier) (e : Ending) (k : Seg) :
    (s.handOutcome g c e).engine k = s.engine k := (handOutcome_keeps ..).engine k

theorem leaveTo_of_pending (h : (s.engine g).disablePending = true) (next : EngineState) :
    s.leaveTo g next = s.enterDisabled g := if_pos h

theorem leaveTo_of_not_pending (h : (s.engine g).disablePending = false) (next : EngineState) :
    s.leaveTo g next = s.setEngine g { s.engine g with state := next } := if_neg (Bool.eq_false_iff.mp h)

theorem tryRecovery_of_lt (h : (s.engine g).tries < 2) : s.tryRecovery g = s.setEngine g
    { s.engine g with
      state := .recovering .waitScl 0 false
      tries := (s.engine g).tries + 1
      stats := { (s.engine g).stats with recoveries := min ((s.engine g).stats.recoveries + 1) 65535 } } := if_pos h

theorem tryRecovery_of_le (h : 2 ≤ (s.engine g).tries) : s.tryRecovery g = s.enterFaulted g .notFree :=
  if_neg (Nat.not_lt.mpr h)

theorem countEnd_eq (st : Status) (x : Stats) : countEnd st x =
    { x with
      addrNacks := if st = .addrNack then min (x.addrNacks + 1) 65535 else x.addrNacks
      dataNacks := if st = .dataNack then min (x.dataNacks + 1) 65535 else x.dataNacks } := by
  unfold countEnd
  by_cases ha : st = .addrNack
  · simp [ha, satInc]
  · by_cases hd : st = .dataNack <;> simp [ha, hd, satInc]

/-! ### The events of an ACTIVE engine -/

theorem exec_transactionEnd_cut (hheld : s.held = false) (hx : (s.engine g).state = .active x) {c : CutCause}
    (hc : x.carrier = .cut c) (acks : List Bool) (data : List Byte) :
    exec (.transactionEnd g acks data) s = .next s := by
  show execTransactionEnd g acks data s = .next s
  simp [execTransactionEnd, hubEvent_running hheld, hx, hc, Carrier.isCut]

theorem exec_transactionEnd (hheld : s.held = false) (hx : (s.engine g).state = .active x)
    (hc : ∀ c, x.carrier ≠ .cut c) (acks : List Bool) (data : List Byte) :
    exec (.transactionEnd g acks data) s = .next (s.endTransaction g x (x.work.ending acks data)) := by
  have hcarried : x.carrier.isCut = false := by
    cases hk : x.carrier with
    | port | poll => rfl
    | cut c => exact absurd hk (hc c)
  show execTransactionEnd g acks data s = _
  simp [execTransactionEnd, hubEvent_running hheld, hx, hcarried]

theorem exec_lineConflict (hheld : s.held = false) (hx : (s.engine g).state = .active x) (acks : List Bool) :
    exec (.lineConflict g acks) s = .next (s.conflict g x acks) := by
  show execLineConflict g acks s = _
  simp [execLineConflict, hubEvent_running hheld, hx]

theorem exec_timeout (hheld : s.held = false) (hx : (s.engine g).state = .active x) (acks : List Bool) :
    exec (.timeout g acks) s = .next (s.expireLimit g x acks) := by
  show execTimeout g acks s = _
  simp [execTimeout, hubEvent_running hheld, hx]

theorem exec_cutEnd (hheld : s.held = false) (hx : (s.engine g).state = .active x) {c : CutCause}
    (hc : x.carrier = .cut c) : exec (.cutEnd g) s = .next (s.leaveTo g (cutTarget c)) := by
  show execCutEnd g s = _
  simp [execCutEnd, hubEvent_running hheld, hx, hc]

/-! ### The end of a transaction (R94, R99, R108) -/

/-- The outcome of a transaction that ends has been counted and handed over, and tries are 0 (R94, R99, R108). -/
def handed (s : State) (g : Seg) (c : Carrier) (out : Ending) : State :=
  (s.setEngine g { s.engine g with
    tries := 0
    stats := { (s.engine g).stats with
      addrNacks := if out.status = .addrNack then min ((s.engine g).stats.addrNacks + 1) 65535
        else (s.engine g).stats.addrNacks
      dataNacks := if out.status = .dataNack then min ((s.engine g).stats.dataNacks + 1) 65535
        else (s.engine g).stats.dataNacks } }).handOutcome g c out

theorem handed_engine_pending (s : State) (g : Seg) (c : Carrier) (out : Ending) :
    ((s.handed g c out).engine g).disablePending = (s.engine g).disablePending := by
  simp [handed]

theorem endTransaction_eq (s : State) (g : Seg) (x : Transaction) (out : Ending) :
    s.endTransaction g x out = (s.handed g x.carrier out).leaveTo g .idle := by
  unfold endTransaction handed
  congr 2
  simp [clearTries, count, setEngine_setEngine, countEnd_eq]

end State

/-- Settles O45: a transaction that is being cut stays; any other ends with its outcome handed over and tries 0. -/
theorem transactionEndReturnsToIdle : Obligations.TransactionEndReturnsToIdle := by
  refine ⟨fun s g x c acks data hheld hx hc => exec_transactionEnd_cut hheld hx hc acks data,
    fun s g x acks data hheld hx hc => ?_⟩
  intro e out u
  rw [exec_transactionEnd hheld hx hc, endTransaction_eq]
  have hpending := handed_engine_pending s g x.carrier (x.work.ending acks data)
  exact ⟨fun hp => congrArg Host.Outcome.next (leaveTo_of_not_pending (hpending.trans hp) _),
    fun hp => congrArg Host.Outcome.next (leaveTo_of_pending (hpending.trans hp) _)⟩

/-- Settles O46: both events count and hand the outcome over, then a disable pending decides, and for a TIMEOUT the
tries. -/
theorem conflictAndTimeoutEndTheTransaction : Obligations.ConflictAndTimeoutEndTheTransaction := by
  refine ⟨fun s g x acks hheld hx => ?_, fun s g x acks hheld hx => ?_⟩
  · intro e u
    have hu : u.engine g =
        { e with stats := { e.stats with lineConflicts := min (e.stats.lineConflicts + 1) 65535 } } :=
      (handOutcome_engine ..).trans (setEngine_engine_self ..)
    have hpending : (u.engine g).disablePending = e.disablePending := by rw [hu]
    rw [exec_lineConflict hheld hx]
    exact ⟨fun hp => congrArg Host.Outcome.next (leaveTo_of_not_pending (hpending.trans hp) _),
      fun hp => congrArg Host.Outcome.next (leaveTo_of_pending (hpending.trans hp) _)⟩
  · intro e u
    have hu : u.engine g = { e with stats := { e.stats with timeouts := min (e.stats.timeouts + 1) 65535 } } :=
      (handOutcome_engine ..).trans (setEngine_engine_self ..)
    have hpending : (u.engine g).disablePending = e.disablePending := by rw [hu]
    have htries : (u.engine g).tries = e.tries := by rw [hu]
    have hexpire : s.expireLimit g x acks =
        if (u.engine g).disablePending then u.enterDisabled g else u.tryRecovery g := rfl
    rw [exec_timeout hheld hx, hexpire, hpending]
    refine ⟨fun hp => by rw [if_pos hp], fun hp hlt => ?_, fun hp hle => ?_⟩
    · rw [if_neg (by simp [hp]), tryRecovery_of_lt (htries ▸ hlt), htries, hu]
    · rw [if_neg (by simp [hp]), tryRecovery_of_le (htries ▸ hle)]

end Sys2Proof.Machine
end

section
/-! PROOF. CHECKING, the end of a cut, and the steps of RECOVERING (R97, R98, R99, R100, R103, R109, R112, log 10). -/

namespace Sys2Proof.Machine

set_option Elab.async false

open State

namespace State

variable {s : State} {g : Seg}

/-! ### A low line and the windows of CHECKING (R97, R98) -/

theorem exec_lineLowInIdle (hheld : s.held = false) (hs : (s.engine g).state = .idle) :
    exec (.lineLowInIdle g) s = .next (s.setEngineState g (.checking 0 0)) := by
  show execLineLowInIdle g s = _
  rw [execLineLowInIdle, hubEvent_running hheld, if_pos hs]
  rfl

theorem exec_lineLowInIdle_of_ne (hheld : s.held = false) (hs : (s.engine g).state ≠ .idle) :
    exec (.lineLowInIdle g) s = .next s := by
  show execLineLowInIdle g s = _
  rw [execLineLowInIdle, hubEvent_running hheld, if_neg hs]

section

variable {free limit : Nat} (hheld : s.held = false) (hs : (s.engine g).state = .checking free limit)
include hheld hs

theorem exec_freeWindowComplete : exec (.freeWindowComplete g) s = .next (s.setEngineState g .idle) := by
  show execFreeWindowComplete g s = _
  simp [execFreeWindowComplete, hubEvent_running hheld, hs]

theorem exec_freeWindowRestart : exec (.freeWindowRestart g) s = .next (s.setEngineState g (.checking 0 limit)) := by
  show execFreeWindowRestart g s = _
  simp [execFreeWindowRestart, hubEvent_running hheld, hs]

theorem exec_limitWindowEnd : exec (.limitWindowEnd g) s = .next (s.tryRecovery g) := by
  show execLimitWindowEnd g s = _
  simp [execLimitWindowEnd, hubEvent_running hheld, hs]

end

theorem cutTarget_eq (c : CutCause) : cutTarget c = if c = .portReset then .idle else .checking 0 0 := by
  cases c <;> rfl

/-! ### The steps of RECOVERING (R100) -/

section

variable {step : RecoveryStep} {n marks : Nat} {hub : Bool} (hheld : s.held = false)
include hheld

theorem exec_recoverySclHigh (hs : (s.engine g).state = .recovering .waitScl marks hub) (sda : Bool) :
    exec (.recoverySclHigh g sda) s =
      .next (s.setEngineState g (.recovering (if sda then .stop else .pulse 1) 0 hub)) := by
  show execRecoverySclHigh g sda s = _
  simp [execRecoverySclHigh, hubEvent_running hheld, hs]

theorem exec_recoverySclTimeout (hs : (s.engine g).state = .recovering step marks hub) :
    exec (.recoverySclTimeout g) s =
      .next (if (s.engine g).disablePending then s.enterDisabled g else s.enterFaulted g .sclStuck) := by
  show execRecoverySclTimeout g s = _
  simp [execRecoverySclTimeout, hubEvent_running hheld, hs]

theorem exec_recoveryPulseEnd (hs : (s.engine g).state = .recovering (.pulse n) marks hub) (sda : Bool) :
    exec (.recoveryPulseEnd g sda) s =
      .next (if (s.engine g).disablePending then s.enterDisabled g else s.afterPulse g n hub sda) := by
  show execRecoveryPulseEnd g sda s = _
  simp [execRecoveryPulseEnd, hubEvent_running hheld, hs]

theorem exec_recoveryStopEnd (hs : (s.engine g).state = .recovering .stop marks hub) :
    exec (.recoveryStopEnd g) s = .next (s.leaveTo g (.checking 0 0)) := by
  show execRecoveryStopEnd g s = _
  simp [execRecoveryStopEnd, hubEvent_running hheld, hs]

variable (hp : (s.engine g).disablePending = false)
include hp

theorem exec_recoverySclTimeout_of_not_pending (hs : (s.engine g).state = .recovering step marks hub) :
    exec (.recoverySclTimeout g) s = .next (s.enterFaulted g .sclStuck) := by
  rw [exec_recoverySclTimeout hheld hs, if_neg (Bool.eq_false_iff.mp hp)]

theorem exec_recoveryPulseEnd_of_not_pending (hs : (s.engine g).state = .recovering (.pulse n) marks hub) (sda : Bool) :
    exec (.recoveryPulseEnd g sda) s = .next (s.afterPulse g n hub sda) := by
  rw [exec_recoveryPulseEnd hheld hs, if_neg (Bool.eq_false_iff.mp hp)]

theorem exec_recoveryStopEnd_of_not_pending (hs : (s.engine g).state = .recovering .stop marks hub) :
    exec (.recoveryStopEnd g) s = .next (s.setEngineState g (.checking 0 0)) := by
  rw [exec_recoveryStopEnd hheld hs, leaveTo_of_not_pending hp]
  rfl

end

/-! ### What follows a pulse with SDA low (R100) -/

theorem afterPulse_low {n : Nat} (h : n < 9) :
    s.afterPulse g n false false = s.setEngineState g (.recovering (.pulse (n + 1)) 0 false) := by
  simp [afterPulse, h]

theorem afterPulse_stuck {n : Nat} (h : 9 ≤ n) : s.afterPulse g n false false = s.enterFaulted g .sdaStuck := by
  simp [afterPulse, Nat.not_lt.mpr h]

end State

/-- Settles O47: each window of CHECKING moves the engine as its event says, the limit window by the tries used, and a
cut ends by its cause unless a disable is pending. -/
theorem checkingWindowsAndCutEnds : Obligations.CheckingWindowsAndCutEnds := by
  refine ⟨fun s g hheld => ⟨exec_lineLowInIdle hheld, exec_lineLowInIdle_of_ne hheld, fun free limit hs =>
    ⟨exec_freeWindowComplete hheld hs, exec_freeWindowRestart hheld hs, fun hlt => ?_, fun hle => ?_⟩⟩,
    fun s g x c hheld hx hc => ⟨fun hp => ?_, fun hp => ?_⟩⟩
  · rw [exec_limitWindowEnd hheld hs, tryRecovery_of_lt hlt]
  · rw [exec_limitWindowEnd hheld hs, tryRecovery_of_le hle]
  · rw [exec_cutEnd hheld hx hc, leaveTo_of_not_pending hp, cutTarget_eq]
  · rw [exec_cutEnd hheld hx hc, leaveTo_of_pending hp]

/-- Settles O48: a disable pending decides at the end of every pulse, stop and failed wait; without one a HUB RESET does
at the end of a pulse or stop, and R100 elsewhere. -/
theorem recoveryStepsAndInterruptions : Obligations.RecoveryStepsAndInterruptions := by
  refine ⟨fun s g hheld hp => ⟨fun marks hs => ⟨?_, ?_⟩, fun n marks hs => ⟨?_, fun hn => ?_, fun hn => ?_⟩,
    fun marks hs => ?_, fun step marks hs => ?_⟩, fun s g hheld =>
      ⟨fun hp => ⟨fun n marks hub sda hs => ?_, fun marks hub hs => ?_, fun step marks hub hs => ?_⟩,
        fun hp => ⟨fun n marks sda hs => ?_, fun marks hs => ?_, fun step marks hs => ?_⟩⟩⟩
  · exact exec_recoverySclHigh hheld hs true
  · exact exec_recoverySclHigh hheld hs false
  · exact exec_recoveryPulseEnd_of_not_pending hheld hp hs true
  · rw [exec_recoveryPulseEnd_of_not_pending hheld hp hs false, afterPulse_low hn]
    rfl
  · rw [exec_recoveryPulseEnd_of_not_pending hheld hp hs false, afterPulse_stuck hn]
  · exact exec_recoveryStopEnd_of_not_pending hheld hp hs
  · exact exec_recoverySclTimeout_of_not_pending hheld hp hs
  · rw [exec_recoveryPulseEnd hheld hs, if_pos hp]
  · rw [exec_recoveryStopEnd hheld hs, leaveTo_of_pending hp]
  · rw [exec_recoverySclTimeout hheld hs, if_pos hp]
  · exact exec_recoveryPulseEnd_of_not_pending hheld hp hs sda
  · exact exec_recoveryStopEnd_of_not_pending hheld hp hs
  · exact exec_recoverySclTimeout_of_not_pending hheld hp hs

end Sys2Proof.Machine
end

section
/-! PROOF. What a transaction has before it when it is cut, and cut again while it is being cut (R109, R112). -/

namespace Sys2Proof.Machine

set_option Elab.async false

open State

variable {l mid rest : List BusElement} {e : BusElement}

/-- A cut somewhere among the elements `l` leaves `rest` (R109). -/
def CutLeaves (l rest : List BusElement) : Prop := ∃ k, CutShort (l.drop k) rest

namespace CutLeaves

theorem of_cutShort (h : CutShort l rest) : CutLeaves l rest := ⟨0, h⟩

theorem of_drop {k : Nat} (h : CutLeaves (l.drop k) rest) : CutLeaves l rest := by
  obtain ⟨n, h⟩ := h
  exact ⟨k + n, by rwa [← List.drop_drop]⟩

theorem cons_iff : CutLeaves (e :: l) rest ↔ CutShort (e :: l) rest ∨ CutLeaves l rest := by
  constructor
  · rintro ⟨k, h⟩
    cases k with
    | zero => exact .inl h
    | succ k => exact .inr ⟨k, h⟩
  · rintro (h | ⟨k, h⟩)
    · exact of_cutShort h
    · exact ⟨k + 1, h⟩

theorem of_stop (h : CutLeaves [.stop] rest) : rest = [.stop] := by
  obtain h | ⟨k, h⟩ := cons_iff.mp h
  · cases h
    rfl
  · rw [List.drop_nil] at h
    cases h

/-- Before the stop and after one more element, a cut leaves what it leaves there, or the stop alone. -/
theorem of_cons_stop (h : CutLeaves (e :: [.stop]) rest) : CutShort (e :: [.stop]) rest ∨ rest = [.stop] :=
  (cons_iff.mp h).imp id of_stop

/-- A cut among what an earlier cut left leaves what R109 gives at some element of the transaction, or the stop. -/
theorem again (h : CutShort l mid) (hagain : CutLeaves mid rest) : CutLeaves l rest ∨ rest = [.stop] := by
  cases h with
  | start b more =>
    obtain hfirst | hafter := cons_iff.mp hagain
    · cases hfirst
      exact .inl (of_cutShort (.start ..))
    · refine (of_cons_stop hafter).imp (fun haddress => ?_) id
      cases haddress
      exact cons_iff.mpr (.inr (of_cutShort (.address ..)))
  | restart b more =>
    obtain hfirst | hafter := cons_iff.mp hagain
    · cases hfirst
      exact .inl (of_cutShort (.restart ..))
    · refine (of_cons_stop hafter).imp (fun haddress => ?_) id
      cases haddress
      exact cons_iff.mpr (.inr (of_cutShort (.address ..)))
  | address b more =>
    refine (of_cons_stop hagain).imp (fun hfirst => ?_) id
    cases hfirst
    exact of_cutShort (.address ..)
  | write b more =>
    refine (of_cons_stop hagain).imp (fun hfirst => ?_) id
    cases hfirst
    exact of_cutShort (.write ..)
  | read acked more =>
    refine (of_cons_stop hagain).imp (fun hfirst => ?_) id
    cases hfirst
    exact of_cutShort (.read ..)
  | stop more => exact .inr (of_stop hagain)

end CutLeaves

/-- Every transaction ends with its stop (R93). -/
theorem elements_append_stop (w : Work) : ∃ before, w.elements = before ++ [.stop] := by
  unfold Work.elements
  split <;> exact ⟨_, rfl⟩

theorem cutLeaves_stop (w : Work) : CutLeaves w.elements [.stop] := by
  obtain ⟨before, hw⟩ := elements_append_stop w
  exact ⟨before.length, by rw [hw, List.drop_left]; exact .stop []⟩

/-- A cut leaves a transaction sound, also one that is being cut already (R109, R112). -/
theorem State.AheadSound.cut {x : Transaction} (h : AheadSound x) (g : Seg) (now : Nat) (c : CutCause) :
    AheadSound (x.cut g now c) := by
  obtain ⟨-, hcut⟩ := x.cut_isCut g now c
  have hleaves : CutLeaves x.ahead (x.cut g now c).ahead := hcut h
  show CutLeaves x.work.elements (x.cut g now c).ahead
  unfold AheadSound at h
  split at h
  · rwa [h] at hleaves
  · rwa [h] at hleaves
  · obtain ⟨k, hbefore⟩ := h
    obtain hsome | hstop := CutLeaves.again hbefore hleaves
    · exact hsome.of_drop
    · rw [hstop]
      exact cutLeaves_stop x.work

end Sys2Proof.Machine
end

section
/-! PROOF. The segment engines: where a disable may be pending, the bounds of tries and fault count, and what a
transaction has before it, under each operation and every step (R88, R93, R99, R103, R109). -/

namespace Sys2Proof.Machine

set_option Elab.async false

open State

/-! ### One engine -/

section

variable {e : Engine} {st : EngineState}

/-- What EnginesSound says of one engine. -/
structure EngineSound (e : Engine) : Prop where
  tries : e.tries ≤ 2
  faultCount : e.faultCount ≤ 255
  ahead : ∀ x, e.state = .active x → AheadSound x
  pending : e.disablePending = true → e.state.stopsLater = true

theorem State.enginesSound_iff {s : State} : EnginesSound s ↔ ∀ g, EngineSound (s.engine g) := by
  refine forall_congr' fun g => ⟨fun ⟨htries, hfaults, hahead, hpending⟩ => ?_, fun h => ?_⟩
  · refine ⟨htries, hfaults, fun x hx => (hahead x hx).1, fun hp => ?_⟩
    have hplace := hpending hp
    split at hplace
    · next hs => rw [hs]; rfl
    · next hs => rw [hs]; rfl
    · next hs => rw [hs]; rfl
    · exact hplace.elim
  · refine ⟨h.tries, h.faultCount, fun x hx => ⟨h.ahead x hx, (h.ahead x hx).ahead_ne_nil⟩, fun hp => ?_⟩
    have hlater := h.pending hp
    cases hs : (s.engine g).state with
    | active x => trivial
    | recovering step marks hub => cases step <;> simp [EngineState.stopsLater, hs] at hlater ⊢
    | idle | checking | faulted | disabled => simp [EngineState.stopsLater, hs] at hlater

/-- An engine that may hold a pending disable still may after a HUB RESET (R112). -/
theorem stopsLater_hubReset (h : st.stopsLater = true) (g : Seg) (now : Nat) :
    (st.hubReset g now).stopsLater = true := by
  cases st with
  | active x => rfl
  | recovering step marks hub =>
    cases step with
    | waitScl => exact absurd h Bool.false_ne_true
    | pulse n => rfl
    | stop => rfl
  | idle | checking | faulted | disabled => exact absurd h Bool.false_ne_true

/-- A transaction that a HUB RESET leaves is one that it cut (R112). -/
theorem active_of_hubReset {g : Seg} {now : Nat} {y : Transaction} (h : st.hubReset g now = .active y) :
    ∃ x, st = .active x ∧ y = x.cut g now .hubReset := by
  cases st with
  | active x =>
    cases h
    exact ⟨x, rfl, rfl⟩
  | recovering step marks hub => cases step <;> cases h
  | idle | checking | faulted | disabled => cases h

namespace EngineSound

theorem not_pending (h : EngineSound e) (hstate : e.state = st) (hst : st.stopsLater = false) :
    e.disablePending = false :=
  Bool.eq_false_iff.mpr fun hp => Bool.false_ne_true (hst.symm.trans (hstate ▸ h.pending hp))

/-- The engine takes a state without a transaction, in which its disable may be pending. -/
theorem moved (h : EngineSound e) (hactive : ∀ x, st ≠ .active x)
    (hpending : e.disablePending = true → st.stopsLater = true) : EngineSound { e with state := st } :=
  ⟨h.tries, h.faultCount, fun x hx => absurd hx (hactive x), hpending⟩

/-- Statistics, speed and limit are no part of what is kept. -/
theorem congr {x : Engine} (h : EngineSound e) (hstate : x.state = e.state)
    (hpending : x.disablePending = e.disablePending) (htries : x.tries = e.tries)
    (hfaults : x.faultCount = e.faultCount) : EngineSound x :=
  ⟨htries ▸ h.tries, hfaults ▸ h.faultCount, hstate ▸ h.ahead, fun hp => hstate ▸ h.pending (hpending ▸ hp)⟩

/-- A granted transaction has all its elements before it (R92, R93). -/
theorem start (h : EngineSound e) {c : Carrier} (hc : ∀ cause, c ≠ .cut cause) (w : Work) (now : Nat) :
    EngineSound (startEngine e c w now) := by
  refine ⟨h.tries, h.faultCount, fun x hx => ?_, fun _ => rfl⟩
  cases hx
  cases c with
  | port | poll => exact rfl
  | cut cause => exact absurd rfl (hc cause)

/-- A millisecond mark moves no engine to another state (R96, R98, R100). -/
theorem mark (h : EngineSound e) : EngineSound (markEngine e) := by
  unfold markEngine
  split
  · next x hx =>
    refine ⟨h.tries, h.faultCount, fun y hy => ?_, fun _ => rfl⟩
    cases hy
    exact h.ahead x hx
  · next hs => exact h.moved nofun fun hp => absurd hp (Bool.eq_false_iff.mp (h.not_pending hs rfl))
  · next step marks hub hs =>
    refine h.moved nofun fun hp => ?_
    have hlater := hs ▸ h.pending hp
    cases step <;> exact hlater
  all_goals exact h

theorem cutPort (h : EngineSound e) (p : Port) (now : Nat) (g : Seg) : EngineSound (e.cutPort p now g) := by
  by_cases hp : ∃ x, e.state = .active x ∧ x.carrier = .port p
  · obtain ⟨x, hx, hcarrier⟩ := hp
    rw [cutPort_of_carrier hx hcarrier]
    refine ⟨h.tries, h.faultCount, fun y hy => ?_, fun _ => rfl⟩
    cases hy
    exact (h.ahead x hx).cut g now .portReset
  · push Not at hp
    rw [cutPort_of_not_carrier hp]
    exact h

theorem hubReset (h : EngineSound e) (now : Nat) (g : Seg) : EngineSound (e.hubReset now g) := by
  refine ⟨Nat.zero_le 2, Nat.zero_le 255, fun y hy => ?_, fun hp => stopsLater_hubReset (h.pending hp) g now⟩
  obtain ⟨x, hx, rfl⟩ := active_of_hubReset hy
  exact (h.ahead x hx).cut g now .hubReset

end EngineSound

end

/-! ### The engine of a segment -/

namespace State

variable {s t : State} {g : Seg} {l : List Part}

namespace EnginesSound

theorem engine (h : EnginesSound s) (g : Seg) : EngineSound (s.engine g) := enginesSound_iff.mp h g

theorem keeps (h : EnginesSound s) (k : Keeps s t l) (m : .engines ∉ l := by decide) : EnginesSound t :=
  enginesSound_iff.mpr fun g => k.engine g m ▸ h.engine g

theorem setEngine (h : EnginesSound s) {x : Engine} (hx : EngineSound x) : EnginesSound (s.setEngine g x) := by
  refine enginesSound_iff.mpr fun k => ?_
  rw [setEngine_engine]
  split
  · exact hx
  · exact h.engine k

theorem not_pending (h : EnginesSound s) {st : EngineState} (hs : (s.engine g).state = st)
    (hst : st.stopsLater = false) : (s.engine g).disablePending = false := (h.engine g).not_pending hs hst

theorem goOffline (h : EnginesSound s) (g : Seg) : EnginesSound (s.goOffline g) := h.keeps (goOffline_keeps ..)

/-! ### Engine transitions (R99, R101, R103) -/

/-- With no disable pending the engine may take any state without a transaction. -/
theorem setEngineState (h : EnginesSound s) (hp : (s.engine g).disablePending = false) {st : EngineState}
    (hactive : ∀ x, st ≠ .active x) : EnginesSound (s.setEngineState g st) :=
  h.setEngine ((h.engine g).moved hactive fun hpending => absurd (hp.symm.trans hpending) Bool.false_ne_true)

theorem enterDisabled (h : EnginesSound s) (g : Seg) : EnginesSound (s.enterDisabled g) := by
  have hdisabled : EngineSound { s.engine g with state := .disabled, disablePending := false } :=
    ⟨(h.engine g).tries, (h.engine g).faultCount, nofun, nofun⟩
  exact (h.setEngine hdisabled).goOffline g

/-- With no disable pending an engine may enter FAULTED, where its fault count stops at 255 (R101). -/
theorem enterFaulted (h : EnginesSound s) (hp : (s.engine g).disablePending = false) (reason : FaultReason) :
    EnginesSound (s.enterFaulted g reason) := by
  refine EnginesSound.goOffline (h.setEngine ?_) g
  exact ⟨(h.engine g).tries, Nat.min_le_right .., nofun,
    fun hpending => absurd (hp.symm.trans hpending) Bool.false_ne_true⟩

/-- A third try is never made: the segment is faulted instead (R99). -/
theorem tryRecovery (h : EnginesSound s) (hp : (s.engine g).disablePending = false) :
    EnginesSound (s.tryRecovery g) := by
  obtain hlt | hle := Nat.lt_or_ge (s.engine g).tries 2
  · rw [tryRecovery_of_lt hlt]
    refine h.setEngine ?_
    exact ⟨Nat.succ_le_of_lt hlt, (h.engine g).faultCount, nofun,
      fun hpending => absurd (hp.symm.trans hpending) Bool.false_ne_true⟩
  · rw [tryRecovery_of_le hle]
    exact h.enterFaulted hp _

theorem leaveTo (h : EnginesSound s) (g : Seg) {next : EngineState} (hactive : ∀ x, next ≠ .active x) :
    EnginesSound (s.leaveTo g next) := by
  cases hp : (s.engine g).disablePending with
  | true =>
    rw [leaveTo_of_pending hp]
    exact h.enterDisabled g
  | false =>
    rw [leaveTo_of_not_pending hp]
    exact h.setEngineState hp hactive

theorem afterPulse (h : EnginesSound s) (hp : (s.engine g).disablePending = false) (n : Nat) (hub sda : Bool) :
    EnginesSound (s.afterPulse g n hub sda) := by
  unfold State.afterPulse
  split
  · exact h.setEngineState hp nofun
  · split
    · exact h.setEngineState hp nofun
    · split
      · exact h.setEngineState hp nofun
      · exact h.enterFaulted hp _

/-! ### The ends of a transaction (R94, R95, R96) -/

theorem count (h : EnginesSound s) (g : Seg) (f : Stats → Stats) : EnginesSound (s.count g f) :=
  h.setEngine ((h.engine g).congr rfl rfl rfl rfl)

theorem handOutcome (h : EnginesSound s) (g : Seg) (c : Carrier) (e : Ending) : EnginesSound (s.handOutcome g c e) :=
  h.keeps (handOutcome_keeps ..)

theorem clearTries (h : EnginesSound s) (g : Seg) : EnginesSound (s.clearTries g) := by
  have hg := h.engine g
  exact h.setEngine ⟨Nat.zero_le 2, hg.faultCount, hg.ahead, hg.pending⟩

theorem endTransaction (h : EnginesSound s) (g : Seg) (x : Transaction) (e : Ending) :
    EnginesSound (s.endTransaction g x e) :=
  (((h.count g _).clearTries g).handOutcome g _ e).leaveTo g nofun

theorem conflict (h : EnginesSound s) (g : Seg) (x : Transaction) (acks : List Bool) :
    EnginesSound (s.conflict g x acks) :=
  ((h.count g _).handOutcome g _ _).leaveTo g nofun

theorem expireLimit (h : EnginesSound s) (g : Seg) (x : Transaction) (acks : List Bool) :
    EnginesSound (s.expireLimit g x acks) := by
  have hcounted {f : Stats → Stats} {e : Ending} : EnginesSound ((s.count g f).handOutcome g x.carrier e) :=
    (h.count g f).handOutcome g _ e
  unfold State.expireLimit
  dsimp only
  split
  · exact hcounted.enterDisabled g
  · next hp => exact hcounted.tryRecovery (Bool.eq_false_iff.mpr hp)

/-! ### The segment frames (R103, R105, R106) -/

theorem segmentSet (h : EnginesSound s) (g : Seg) (f : SegmentFields) : EnginesSound (s.segmentSet g f).state := by
  unfold State.segmentSet
  split
  · exact h
  · next c _ =>
    have hengine : EngineSound { s.engine g with speed := c.speed, limit := c.limit } :=
      (h.engine g).congr rfl rfl rfl rfl
    exact (h.setEngine hengine).keeps (setArbiter_keeps ..)

theorem disableLater (h : EnginesSound s) (hs : (s.engine g).state.stopsLater = true) :
    EnginesSound (s.disableLater g) := by
  have hg := h.engine g
  exact h.setEngine ⟨hg.tries, hg.faultCount, hg.ahead, fun _ => hs⟩

theorem segmentDisable (h : EnginesSound s) (g : Seg) : EnginesSound (s.segmentDisable g).state := by
  by_cases hdisabled : (s.engine g).state = .disabled
  · rw [segmentDisable_of_disabled hdisabled]
    exact h
  · cases hlater : (s.engine g).state.stopsLater with
    | true =>
      rw [segmentDisable_later hlater]
      exact h.disableLater hlater
    | false =>
      rw [segmentDisable_now hlater hdisabled]
      exact h.enterDisabled g

/-- An offline segment has no disable pending (R103). -/
theorem not_pending_of_offline (h : EnginesSound s) (hoff : s.offline g = true) :
    (s.engine g).disablePending = false := by
  obtain hs | hs := offline_iff.mp hoff
  · exact h.not_pending hs rfl
  · exact h.not_pending hs rfl

theorem segmentRestore (h : EnginesSound s) (g : Seg) : EnginesSound (s.segmentRestore g).state := by
  unfold State.segmentRestore
  split
  · next hoff =>
    have hrestored : EngineSound { s.engine g with state := .checking 0 0, tries := 0 } :=
      ⟨Nat.zero_le 2, (h.engine g).faultCount, nofun, fun hpending =>
        absurd ((h.not_pending_of_offline hoff).symm.trans hpending) Bool.false_ne_true⟩
    exact (h.setEngine hrestored).keeps (segmentNotice_keeps ..)
  · exact h

theorem statsClear (h : EnginesSound s) (g : Seg) :
    EnginesSound (s.setEngine g { s.engine g with stats := .zero }) := by
  refine h.setEngine ?_
  exact (h.engine g).congr rfl rfl rfl rfl

/-! ### The grant (R78, R92) and the resets (R109, R112) -/

theorem grant (h : EnginesSound s) (g : Seg) (c : Candidate) : EnginesSound (s.grant g c) := by
  unfold State.grant
  cases c with
  | request p r => exact (h.keeps (modifyPort_keeps ..)).setEngine (EngineSound.start (h.engine g) (by nofun) _ _)
  | poll n =>
    have hdue := (h.keeps (setDue_keeps s g ((s.dueOf g).erase n))).keeps
      (setPoll_keeps _ n { s.poll n with mark := .inFlight })
    exact hdue.setEngine (EngineSound.start (h.engine g) (by nofun) _ _)

theorem runDecision (g : Seg) (fuel : Nat) : ∀ {s : State}, EnginesSound s →
    EnginesSound (State.runDecision g fuel s) := by
  induction fuel with
  | zero => exact fun h => h
  | succ fuel ih =>
    intro s h
    have harbiter (a : Arbiter) : EnginesSound (s.setArbiter g a) := h.keeps (setArbiter_keeps ..)
    unfold State.runDecision
    split
    · exact h
    · split
      · exact h
      · split
        · exact ih ((harbiter _).keeps (completeReq_keeps ..))
        · exact (harbiter _).grant g _
      · exact (harbiter _).grant g _

theorem resetPort (h : EnginesSound s) (p : Port) : EnginesSound (s.resetPort p) :=
  enginesSound_iff.mpr fun g => resetPort_engine s p g ▸ (h.engine g).cutPort p s.freeCount g

theorem hubReset (h : EnginesSound s) : EnginesSound s.hubReset :=
  enginesSound_iff.mpr fun g => hubReset_engine s g ▸ (h.engine g).hubReset s.freeCount g

theorem idle (h : EnginesSound s) : EnginesSound s.idle := by
  unfold State.idle
  split
  · exact h
  · split
    · have hmarked : EnginesSound s.countMark :=
        enginesSound_iff.mpr fun g => (mapEngines_engine ..).symm ▸ (h.engine g).mark
      exact hmarked.keeps (enqueue_keeps ..)
    · exact h.keeps (enqueue_keeps ..)

/-! ### Every command -/

theorem next {u : State} (h : EnginesSound u) (e : (.next u : Host.Outcome State Fault Refusal) = .next t) :
    EnginesSound t := by
  cases e
  exact h

theorem noFrame (h : EnginesSound s) (p : Port) : EnginesSound (s.noFrame p) := h.keeps (noFrame_keeps ..)

theorem claimedFrame (h : EnginesSound s) {p : Port} {k : FrameKind} {n : Nat} {b : Byte} {act : State → Fin n → Answer}
    (hact : ∀ s i, EnginesSound s → EnginesSound (act s i).state) :
    EnginesSound (Machine.claimedFrame p k b act s) := by
  cases hrun : s.running p with
  | false =>
    rw [Machine.claimedFrame, frameOf_not_running hrun]
    exact h
  | true =>
    rw [Machine.claimedFrame, frameOf_running hrun]
    refine EnginesSound.keeps ?_ (answers_keeps ..)
    unfold withClaim withIndex
    split
    · split
      · exact hact _ _ (h.noFrame p)
      · exact h.noFrame p
    · exact h.noFrame p

theorem frameEnd (h : EnginesSound s) {p : Port} {k : FrameKind} {act : Snapshot → State → State}
    (hact : ∀ x, EnginesSound (act x (s.noFrame p))) : EnginesSound (Machine.frameEnd p k act s) := by
  unfold Machine.frameEnd
  split
  · split
    · exact hact _
    · exact h
  · exact h

theorem hubEvent (h : EnginesSound s) {act : State → State} (hact : EnginesSound (act s)) :
    EnginesSound (Machine.hubEvent act s) := by
  unfold Machine.hubEvent
  split
  · exact h
  · exact hact

/-- A command that can change an engine keeps it sound; where it leads out of a transaction, a pulse or a stop, it
looks at the pending disable first, and elsewhere none is pending (R103). -/
theorem exec (h : EnginesSound s) {c : Instr} (e : Machine.exec c s = .next t) : EnginesSound t := by
  have hkeeps := exec_keeps e
  cases c with
  | segmentSet p f => exact (h.claimedFrame fun _ g h => h.segmentSet g f).next e
  | segmentDisable p b => exact (h.claimedFrame fun _ g h => h.segmentDisable g).next e
  | segmentRestore p b => exact (h.claimedFrame fun _ g h => h.segmentRestore g).next e
  | statsClear p b =>
    rw [exec_statsClear] at e
    exact (h.claimedFrame fun _ g h => h.statsClear g).next e
  | portResetNormalEnd p =>
    refine (h.frameEnd fun _ => ?_).next e
    exact (h.noFrame p).resetPort p
  | hubResetNormalEnd p =>
    refine (h.frameEnd fun x => ?_).next e
    split
    · exact (h.noFrame p).hubReset
    · exact h.noFrame p
  | prstxnFall p =>
    refine EnginesSound.next ?_ e
    split
    · exact (h.resetPort p).keeps (modifyPort_keeps ..)
    · exact h.keeps (modifyPort_keeps ..)
  | resetnRise a b c =>
    obtain ⟨u, hu, hvalues⟩ := exec_resetnRise_values s #v[a, b, c]
    exact hvalues.enginesSound.next (hu.symm.trans e)
  | arbiterDecision g =>
    refine (h.hubEvent ?_).next e
    split
    · exact h.runDecision g _
    · exact h
  | transactionEnd g acks data =>
    refine (h.hubEvent ?_).next e
    split
    · split
      · exact h
      · exact h.endTransaction g _ _
    · exact h
  | lineConflict g acks =>
    refine (h.hubEvent ?_).next e
    split
    · exact h.conflict g _ acks
    · exact h
  | timeout g acks =>
    refine (h.hubEvent ?_).next e
    split
    · exact h.expireLimit g _ acks
    · exact h
  | cutEnd g =>
    refine (h.hubEvent ?_).next e
    split
    · split
      · next cause _ => exact h.leaveTo g (by cases cause <;> nofun)
      all_goals exact h
    · exact h
  | lineLowInIdle g | freeWindowComplete g | freeWindowRestart g | recoverySclHigh g sda =>
    refine (h.hubEvent ?_).next e
    split
    · next hs => exact h.setEngineState (h.not_pending hs rfl) nofun
    · exact h
  | limitWindowEnd g =>
    refine (h.hubEvent ?_).next e
    split
    · next hs => exact h.tryRecovery (h.not_pending hs rfl)
    · exact h
  | recoverySclTimeout g =>
    refine (h.hubEvent ?_).next e
    split
    · split
      · exact h.enterDisabled g
      · next hp => exact h.enterFaulted (Bool.eq_false_iff.mpr hp) _
    · exact h
  | recoveryPulseEnd g sda =>
    refine (h.hubEvent ?_).next e
    split
    · split
      · exact h.enterDisabled g
      · next hp => exact h.afterPulse (Bool.eq_false_iff.mpr hp) _ _ sda
    · exact h
  | recoveryStopEnd g =>
    refine (h.hubEvent ?_).next e
    split
    · exact h.leaveTo g nofun
    · exact h
  | _ =>
    dsimp only [changes] at hkeeps
    exact h.keeps hkeeps

end EnginesSound

end State

/-- Settles O54: a disable is looked at wherever an engine leaves a transaction, a pulse or a stop, a third try faults
the segment, and a transaction has before it what the grant gave or what a cut, also of one being cut, left. -/
theorem stepKeepsEnginesSound : Obligations.StepKeepsEnginesSound := by
  intro s t h e
  unfold step at e
  split at e
  · exact h.idle.next e
  · next rest _ => exact EnginesSound.exec (s := { s with pending := rest }) h e

end Sys2Proof.Machine
end

section
/-! PROOF. The elements of a transaction, and how it ends by the acknowledge bits it reads (R90, R93, R94, log 8). -/

namespace Sys2Proof.Machine

set_option Elab.async false

open Work

namespace Work

variable {w : Work} {acks : List Bool} {data : List Byte}

/-! ### The elements (R90, R93) -/

/-- The engine acknowledges every byte it reads but the last (R90). -/
theorem readElements_eq (h : 0 < w.readLen) :
    w.readElements = List.replicate (w.readLen - 1) (.read true) ++ [.read false] := by
  obtain ⟨m, hm⟩ : ∃ m, w.readLen = m + 1 := ⟨w.readLen - 1, by omega⟩
  have hbefore : (List.range m).map (fun i => BusElement.read (i + 1 != m + 1)) = List.replicate m (.read true) := by
    refine List.eq_replicate_iff.mpr ⟨by simp, fun e he => ?_⟩
    obtain ⟨i, hi, rfl⟩ := List.mem_map.mp he
    have hne : i ≠ m := (List.mem_range.mp hi).ne
    simp [hne]
  rw [readElements, hm, List.range_succ, List.map_append, hbefore]
  simp

theorem elements_of_writesFirst (h : w.writesFirst = true) : w.elements =
    [.start, .address (w.target ++ 0#1)] ++ w.write.map .write ++
      (if w.readLen = 0 then [] else [.restart, .address (w.target ++ 1#1)] ++ w.readElements) ++ [.stop] :=
  if_pos h

theorem elements_of_readsOnly (h : w.writesFirst = false) : w.elements =
    [.start, .address (w.target ++ 1#1)] ++ w.readElements ++ [.stop] :=
  if_neg (Bool.eq_false_iff.mp h)

theorem writesFirst_of_write (h : w.write ≠ []) : w.writesFirst = true := by
  simp [writesFirst, h]

/-! ### The acknowledge bits (R94) -/

/-- The first write byte that is not acknowledged ends the count. -/
theorem ackedWrites_of_nack {k : Nat} (h : k < w.write.length) :
    w.ackedWrites (true :: List.replicate k true ++ false :: acks) = k := by
  obtain ⟨m, hm⟩ : ∃ m, w.write.length = k + (m + 1) := ⟨w.write.length - k - 1, by omega⟩
  have htake : (List.replicate k true ++ false :: acks).take w.write.length =
      List.replicate k true ++ false :: acks.take m := by
    simp [hm, List.take_append, List.take_replicate]
  show (((List.replicate k true ++ false :: acks).take w.write.length).takeWhile (· == true)).length = k
  rw [htake, List.takeWhile_append_of_pos (by simp)]
  simp

theorem ackedWrites_of_acks : w.ackedWrites (true :: List.replicate w.write.length true ++ acks) = w.write.length := by
  show (((List.replicate w.write.length true ++ acks).take w.write.length).takeWhile (· == true)).length = _
  rw [List.take_left' (List.length_replicate ..), List.takeWhile_eq_self_iff.mpr (by simp), List.length_replicate]

/-- The bit after those of the write bytes answers the second address byte. -/
theorem acked_second (n : Nat) (b : Bool) : acked (true :: List.replicate n true ++ b :: acks) (n + 1) = b := by
  simp [acked]

theorem readBytes_eq_self (h : data.length = w.readLen) : w.readBytes data = data := by
  rw [readBytes, ← h, List.take_left]

/-! ### How a transaction ends (R94) -/

theorem ending_of_addressNack (h : acked acks 0 = false) : w.ending acks data = { status := .addrNack } := by
  simp [ending, h]

theorem ending_of_dataNack (h : acked acks 0 = true) (hwrites : w.ackedWrites acks < w.write.length) :
    w.ending acks data = { status := .dataNack, ackCount := w.ackedWrites acks } := by
  simp [ending, h, hwrites]

/-- Only a transaction that writes and reads addresses its target a second time (R93). -/
theorem ending_of_secondNack (h : acked acks 0 = true) (hwrites : w.ackedWrites acks = w.write.length)
    (hw : w.write ≠ []) (hr : w.readLen ≠ 0) (hsecond : acked acks (w.write.length + 1) = false) :
    w.ending acks data = { status := .addrNack, ackCount := w.write.length } := by
  simp [ending, h, hwrites, writesFirst_of_write hw, hr, hsecond]

theorem ending_of_acks (h : acked acks 0 = true) (hwrites : w.ackedWrites acks = w.write.length)
    (hsecond : acked acks (w.write.length + 1) = true ∨ w.write = [] ∨ w.readLen = 0) :
    w.ending acks data = { status := .done, ackCount := w.write.length, readData := w.readBytes data } := by
  have hpast : (w.writesFirst && w.readLen != 0 && !acked acks (w.write.length + 1)) = false := by
    obtain hsecond | hw | hr := hsecond
    · simp [hsecond]
    · by_cases hr : w.readLen = 0 <;> simp [writesFirst, hw, hr]
    · simp [hr]
  simp [ending, h, hwrites, hpast]

end Work

/-- Settles O43: the elements by whether the work writes and reads, the outcome by the first bit that is no
acknowledge. -/
theorem transactionElementsAndOutcome : Obligations.TransactionElementsAndOutcome := by
  refine ⟨fun a w n => ⟨rfl, fun hw => ?_, fun hn => ?_, fun hw hn => ?_⟩,
    fun w acks data => ⟨ending_of_addressNack rfl, fun k hk => ?_, fun hw hr => ?_, fun hdata => ⟨?_, fun hone => ?_⟩⟩⟩
  · rw [elements_of_writesFirst (writesFirst_of_write hw), if_pos rfl, List.append_nil]
  · have hreads : (⟨a, [], n⟩ : Work).writesFirst = false := by simp [writesFirst]; omega
    rw [elements_of_readsOnly hreads, readElements_eq hn]
  · rw [elements_of_writesFirst (writesFirst_of_write hw), if_neg hn.ne', readElements_eq hn]
    simp only [List.append_assoc]
  · rw [ending_of_dataNack rfl (by rwa [ackedWrites_of_nack hk]), ackedWrites_of_nack hk]
  · exact ending_of_secondNack rfl ackedWrites_of_acks hw hr (acked_second ..)
  · rw [ending_of_acks rfl ackedWrites_of_acks (.inl (acked_second ..)), readBytes_eq_self hdata]
  · have hbits : w.ackedWrites (true :: List.replicate w.write.length true) = w.write.length := by
      simpa using ackedWrites_of_acks (w := w) (acks := [])
    rw [ending_of_acks rfl hbits (.inr hone), readBytes_eq_self hdata]

end Sys2Proof.Machine
end

section
/-! PROOF. To whom the outcome of a transaction is handed, and what a poll entry stores of it (R94, R109, R120,
R121). -/

namespace Sys2Proof.Machine

set_option Elab.async false

open State

namespace State

variable {s : State} {g : Seg} {n : PollIdx}

/-! ### The owner of a transaction (R94, R109) -/

theorem handOutcome_port {p : Port} {r : Request} (h : s.inFlightReq p g = some r) (e : Ending) :
    s.handOutcome g (.port p) e = s.completeReq p r e := by
  rw [handOutcome, h]

/-! ### The completion of a poll (R120, R121) -/

/-- A run to be discarded stores nothing. -/
theorem completePoll_of_discard (h : (s.poll n).discard = true) (st : Status) (data : List Byte) :
    s.completePoll n st data = s.setPoll n { s.poll n with mark := .none, discard := false } := by
  simp [completePoll, h]

theorem completePoll_of_ne_done (h : (s.poll n).discard = false) {st : Status} (hst : st ≠ .done) (data : List Byte) :
    s.completePoll n st data = s.setPoll n
      { s.poll n with
        mark := .none
        result := { (s.poll n).result with status := some st, sequence := (s.poll n).result.sequence + 1 } } := by
  simp [completePoll, h, hst, pollStore]

theorem completePoll_done (h : (s.poll n).discard = false) (data : List Byte) : s.completePoll n .done data =
    (if pollChanged (s.poll n).result data then s.tellPoll n (s.poll n).config.notify else s).setPoll n
      { s.poll n with mark := .none, result := ⟨some .done, (s.poll n).result.sequence + 1, true, data, 0⟩ } := by
  simp [completePoll, h, pollStore]

/-- A change that leaves every port is none. -/
theorem mapPorts_eq_self {f : Port → PortState → PortState} (h : ∀ p, f p (s.port p) = s.port p) :
    s.mapPorts f = s := by
  refine ext_parts rfl (fun p => ?_) ?_ ?_ ?_ ?_ ?_ ?_ ?_ rfl rfl rfl
  · rw [mapPorts_port, h]
  all_goals exact fun _ => rfl

/-- Only a changed result tells the notify set (R121). -/
theorem tellPoll_if (s : State) (n : PollIdx) (notify : BitVec 3) (changed : Bool) :
    (if changed then s.tellPoll n notify else s) = s.mapPorts fun p ps =>
      if changed = true ∧ notify.getLsbD p.val = true then ps.addNotices (.ofPoll n) else ps := by
  cases changed with
  | false => exact (mapPorts_eq_self fun p => if_neg (by simp)).symm
  | true => simp [tellPoll]

end State

/-- Settles O44: the owner by the carrier, and a poll's completion by its discard flag and the status. -/
theorem outcomesReachTheirOwners : Obligations.OutcomesReachTheirOwners := by
  refine ⟨fun s g e => ⟨fun p r hr => handOutcome_port hr e, fun n => rfl, fun c => rfl⟩, fun s n st data =>
    ⟨fun h => completePoll_of_discard h st data, fun h hst => completePoll_of_ne_done h hst data, fun h => ?_⟩⟩
  rw [completePoll_done h, tellPoll_if]
  rfl

end Sys2Proof.Machine
end

section
/-! PROOF. The lines an engine drives and watches, and the byte MISOx carries (R89, R100, R111, R154, R156,
R159, R163). -/

namespace Sys2Proof.Machine

set_option Elab.async false

open State

/-! ### Bytes that are no whole request part (R156) -/

/-- No frame's own command is a framing error. -/
theorem command_ne_framingError (k : FrameKind) (p q : Port) (bytes : List Byte) :
    k.command p bytes ≠ .framingError q := by
  cases k <;> exact nofun

theorem frameCommands_framingError_iff (p : Port) (bytes : List Byte) :
    frameCommands p bytes = [.framingError p] ↔ requestReceived bytes = false := by
  cases bytes with
  | nil => exact iff_of_true rfl rfl
  | cons kind rest =>
    unfold frameCommands requestReceived
    dsimp only
    cases FrameKind.ofCode kind with
    | none => simp
    | some k =>
      dsimp only
      cases k.requestPart (kind :: rest) with
      | none => simp
      | some n =>
        dsimp only
        by_cases hn : (kind :: rest).length < n
        · rw [if_pos hn]
          exact iff_of_true rfl (decide_eq_false (Nat.not_le.mpr hn))
        · rw [if_neg hn]
          simpa [command_ne_framingError] using Nat.not_lt.mp hn

namespace State

variable {s : State} {p : Port} {g : Seg} {bytes : List Byte} {f : Frame}

/-! ### The lines of a segment (R89, R100, R111) -/

theorem lines_of_held (h : s.held = true) (g : Seg) :
    s.drivesScl g = false ∧ s.drivesSda g = false ∧ s.watchesLines g = false := by
  simp [drivesScl, drivesSda, watchesLines, h]

theorem drivesScl_iff (h : s.held = false) : s.drivesScl g = true ↔
    (∃ x, (s.engine g).state = .active x) ∨ (∃ n marks hub, (s.engine g).state = .recovering (.pulse n) marks hub) ∨
      ∃ marks hub, (s.engine g).state = .recovering .stop marks hub := by
  unfold drivesScl
  cases (s.engine g).state with
  | recovering step marks hub => cases step <;> simp [h]
  | active | idle | checking | faulted | disabled => simp [h]

theorem drivesSda_iff (h : s.held = false) : s.drivesSda g = true ↔
    (∃ x, (s.engine g).state = .active x) ∨ ∃ marks hub, (s.engine g).state = .recovering .stop marks hub := by
  unfold drivesSda
  cases (s.engine g).state with
  | recovering step marks hub => cases step <;> simp [h]
  | active | idle | checking | faulted | disabled => simp [h]

theorem watchesLines_iff (h : s.held = false) : s.watchesLines g = true ↔
    (s.engine g).state ≠ .faulted ∧ (s.engine g).state ≠ .disabled := by
  have hoff : s.watchesLines g = !s.offline g := by simp [watchesLines, h]
  rw [hoff, Bool.not_eq_true', ← not_or, ← offline_iff, Bool.not_eq_true]

/-! ### The byte MISOx carries (R154) -/

/-- MISOx is driven while CSxN is low on a RUNNING port. -/
theorem misoByte_ne_none_iff (s : State) (p : Port) (wire : Option (List Byte)) :
    s.misoByte p wire ≠ none ↔ s.running p = true ∧ wire ≠ none := by
  unfold misoByte
  cases s.running p <;> simp

theorem misoByte_noFrame (hrun : s.running p = true) (hf : (s.port p).frame = none) (bytes : List Byte) :
    s.misoByte p (some bytes) = some 0x00 := by
  simp [misoByte, hrun, hf]

/-- Through the request part and the gap byte MISOx carries 0x00. -/
theorem misoByte_request (hrun : s.running p = true) (hf : (s.port p).frame = some f)
    (h : requestReceived bytes = false ∨ bytes.length ≤ f.requestLen) : s.misoByte p (some bytes) = some 0x00 := by
  simp only [misoByte, hrun, if_pos, Option.map_some, hf, if_pos h]

theorem misoByte_reply (hrun : s.running p = true) (hf : (s.port p).frame = some f)
    (h : requestReceived bytes = true) (hlen : f.requestLen < bytes.length) :
    s.misoByte p (some bytes) = some (f.reply.getD (bytes.length - (f.requestLen + 1)) 0x00) := by
  have hpast : ¬(requestReceived bytes = false ∨ bytes.length ≤ f.requestLen) := by
    simpa [h] using hlen
  simp only [misoByte, hrun, if_pos, Option.map_some, hf, if_neg hpast]

/-- While the request part is incomplete MISOx carries 0x00, whatever frame came before (R154, R156). -/
theorem misoByte_incomplete (hrun : s.running p = true) (h : requestReceived bytes = false) :
    s.misoByte p (some bytes) = some 0x00 := by
  cases hf : (s.port p).frame with
  | none => exact misoByte_noFrame hrun hf bytes
  | some f => exact misoByte_request hrun hf (.inl h)

/-- After the reply part MISOx carries 0x00. -/
theorem misoByte_after (hrun : s.running p = true) (hf : (s.port p).frame = some f)
    (hlen : f.requestLen + 1 + f.reply.length ≤ bytes.length) : s.misoByte p (some bytes) = some 0x00 := by
  cases h : requestReceived bytes with
  | false => exact misoByte_incomplete hrun h
  | true =>
    rw [misoByte_reply hrun hf h (by omega), List.getD_eq_default]
    omega

end State

/-- Settles O49: the lines by the engine's state, the byte by the place in the frame. -/
theorem linesAndMisoFollowTheState : Obligations.LinesAndMisoFollowTheState := by
  refine ⟨fun s g => ⟨fun h => lines_of_held h g, fun h => ⟨drivesScl_iff h, drivesSda_iff h, watchesLines_iff h⟩⟩,
    misoByte_ne_none_iff, fun s p bytes hrun => ⟨fun h => ?_, fun hf => misoByte_noFrame hrun hf bytes,
      fun f hf => ⟨fun hlen => misoByte_request hrun hf (.inr hlen), fun j b hframe hlen hb => ?_,
        misoByte_after hrun hf⟩⟩⟩
  · exact misoByte_incomplete hrun ((frameCommands_framingError_iff p bytes).mp h)
  · have hreceived : requestReceived bytes = true :=
      (Bool.not_eq_false _).mp fun h => hframe ((frameCommands_framingError_iff p bytes).mpr h)
    have hplace : bytes.length - (f.requestLen + 1) = j := by omega
    rw [misoByte_reply hrun hf hreceived (by omega), hplace, List.getD_eq_getElem?_getD, hb]
    rfl

end Sys2Proof.Machine
end

section
/-! PROOF. Where each poll entry stands: how often in the due lists, what its mark says and which engine carries it
(R114, R117). -/

namespace Sys2Proof.Machine

set_option Elab.async false

open State

namespace State

variable {s t : State} {g k : Seg} {n m : PollIdx} {among : Seg → Prop} {l : List Part}

/-! ### The due lists, counted together -/

theorem allDue_congr (h : ∀ g, t.dueOf g = s.dueOf g) : t.allDue = s.allDue := by
  simp only [allDue, h]

theorem mapDue_filter_allDue (s : State) (sel : PollIdx → Bool) :
    (s.mapDue (·.filter sel)).allDue = s.allDue.filter sel := by
  simp [allDue]

/-- A due list that is replaced gives up its own entries for those of the new one. -/
theorem count_allDue_setDue (s : State) (g : Seg) (x : List PollIdx) (n : PollIdx) :
    (s.setDue g x).allDue.count n + (s.dueOf g).count n = s.allDue.count n + x.count n := by
  match g with
  | 0 | 1 | 2 | 3 =>
    simp [allDue, setDue_dueOf, List.count_append]
    omega

theorem count_dueOf_le (s : State) (g : Seg) (n : PollIdx) : (s.dueOf g).count n ≤ s.allDue.count n := by
  match g with
  | 0 | 1 | 2 | 3 =>
    simp only [allDue, List.count_append]
    omega

/-! ### What an engine carries (R88) -/

theorem carriesPoll_iff : s.carriesPoll g n = true ↔ ∃ x, (s.engine g).state = .active x ∧ x.carrier = .poll n := by
  unfold carriesPoll
  cases (s.engine g).state <;> simp

theorem carriesPoll_congr (h : (t.engine g).state = (s.engine g).state) : t.carriesPoll g n = s.carriesPoll g n := by
  rw [carriesPoll, h]
  rfl

theorem carriesPoll_setEngine_ne (h : g ≠ k) (x : Engine) :
    (s.setEngine g x).carriesPoll k n = s.carriesPoll k n := carriesPoll_congr (by rw [setEngine_engine_ne _ h])

/-! ### One entry -/

/-- What DueSound says of poll entry `n`, of the engines looking only at those that `among` picks: how often it is due
and whether one of them carries it agree with its mark. -/
structure PollPlaced (s : State) (among : Seg → Prop) (n : PollIdx) : Prop where
  discard : (s.poll n).discard = true → (s.poll n).mark = .inFlight
  due : s.allDue.count n = if (s.poll n).mark = .queued then 1 else 0
  inFlight : ∀ g, among g → s.carriesPoll g n = true → (s.poll n).mark = .inFlight
  once : ∀ g k, among g → among k → s.carriesPoll g n = true → s.carriesPoll k n = true → g = k

/-- Every poll entry is where its mark says. Between the hand-over of a poll's outcome and the engine's leaving ACTIVE
this holds of all engines but one. -/
def Placed (s : State) (among : Seg → Prop) : Prop := ∀ n, PollPlaced s among n

/-- Every poll entry is where its mark says, with all engines looked at. -/
abbrev AllPlaced (s : State) : Prop := Placed s fun _ => True

theorem dueSound_iff : DueSound s ↔ AllPlaced s := by
  constructor
  · rintro ⟨hdiscard, hnodup, hqueued, hinFlight, honce⟩ n
    refine ⟨hdiscard n, ?_, fun g _ => hinFlight g n, fun g k _ _ => honce g k n⟩
    split
    · next hm => exact List.count_eq_one_of_mem hnodup ((hqueued n).mpr hm)
    · next hm => exact List.count_eq_zero.mpr fun hn => hm ((hqueued n).mp hn)
  · intro h
    refine ⟨fun n => (h n).discard, List.nodup_iff_count_le_one.mpr fun n => ?_, fun n => ?_,
      fun g n => (h n).inFlight g trivial, fun g k n => (h n).once g k trivial trivial⟩
    · rw [(h n).due]
      split <;> omega
    · rw [← List.count_pos_iff, (h n).due]
      split
      · next hm => exact iff_of_true Nat.one_pos hm
      · next hm => exact iff_of_false (Nat.lt_irrefl 0) hm

namespace PollPlaced

/-- An entry stands where it stood when its mark, its flag and its places are as they were. -/
theorem congr {among' : Seg → Prop} (h : PollPlaced s among n) (hdue : t.allDue.count n = s.allDue.count n)
    (hmark : (t.poll n).mark = (s.poll n).mark) (hdiscard : (t.poll n).discard = (s.poll n).discard)
    (hcarries : ∀ g, among' g → t.carriesPoll g n = true → among g ∧ s.carriesPoll g n = true) :
    PollPlaced t among' n where
  discard hd := hmark.trans (h.discard (hdiscard.symm.trans hd))
  due := by rw [hdue, hmark, h.due]
  inFlight g hg hc := by
    obtain ⟨hg, hc⟩ := hcarries g hg hc
    exact hmark.trans (h.inFlight g hg hc)
  once g k hg hk hcg hck := by
    obtain ⟨hg, hcg⟩ := hcarries g hg hcg
    obtain ⟨hk, hck⟩ := hcarries k hk hck
    exact h.once g k hg hk hcg hck

/-- An entry that no engine carries stands where its mark says, if that is a due list or nowhere. -/
theorem of_not_carried (hdiscard : (s.poll n).discard = false)
    (hdue : s.allDue.count n = if (s.poll n).mark = .queued then 1 else 0)
    (hcarries : ∀ g, among g → s.carriesPoll g n = false) : PollPlaced s among n :=
  have hnot {p : Prop} (g : Seg) (hg : among g) (hc : s.carriesPoll g n = true) : p :=
    absurd ((hcarries g hg).symm.trans hc) Bool.false_ne_true
  ⟨fun hd => absurd (hdiscard.symm.trans hd) Bool.false_ne_true, hdue, hnot, fun g _ hg _ hc _ => hnot g hg hc⟩

/-- Only an entry that is IN_FLIGHT is carried. -/
theorem not_carried (h : PollPlaced s among n) (hmark : (s.poll n).mark ≠ .inFlight) (hg : among g) :
    s.carriesPoll g n = false :=
  Bool.eq_false_iff.mpr fun hc => hmark (h.inFlight g hg hc)

/-- The flag is clear while the entry is not IN_FLIGHT (R114). -/
theorem not_discarded (h : PollPlaced s among n) (hmark : (s.poll n).mark ≠ .inFlight) : (s.poll n).discard = false :=
  Bool.eq_false_iff.mpr fun hd => hmark (h.discard hd)

theorem not_due (h : PollPlaced s among n) (hmark : (s.poll n).mark ≠ .queued) : s.allDue.count n = 0 := by
  rw [h.due, if_neg hmark]

/-- A due entry is QUEUED. -/
theorem queued_of_mem (h : PollPlaced s among n) (hn : n ∈ s.dueOf g) : (s.poll n).mark = .queued := by
  by_contra hmark
  have hpos := List.count_pos_iff.mpr hn
  have hle := count_dueOf_le s g n
  have hzero := h.not_due hmark
  omega

end PollPlaced

/-! ### Updates of the state -/

namespace Placed

theorem dueOf_nodup (h : Placed s among) (g : Seg) : (s.dueOf g).Nodup := by
  refine List.nodup_iff_count_le_one.mpr fun n => (count_dueOf_le s g n).trans ?_
  rw [(h n).due]
  split <;> omega

/-- Where due lists and engines stand, an entry stands as long as its mark and its flag do. -/
theorem of_marks (h : Placed s among) (k : Keeps s t l) (hmark : ∀ n, (t.poll n).mark = (s.poll n).mark)
    (hdiscard : ∀ n, (t.poll n).discard = (s.poll n).discard) (md : .due ∉ l := by decide)
    (me : .engines ∉ l := by decide) : Placed t among := fun n =>
  (h n).congr (by rw [allDue_congr fun g => k.dueOf g md]) (hmark n) (hdiscard n) fun g hg hc =>
    ⟨hg, (carriesPoll_congr (by rw [k.engine g me])).symm.trans hc⟩

theorem keeps (h : Placed s among) (k : Keeps s t l) (md : .due ∉ l := by decide) (mp : .polls ∉ l := by decide)
    (me : .engines ∉ l := by decide) : Placed t among :=
  h.of_marks k (fun n => by rw [k.poll n mp]) (fun n => by rw [k.poll n mp]) md me

theorem setPoll (h : Placed s among) {x : PollEntry} (hmark : x.mark = (s.poll n).mark)
    (hdiscard : x.discard = (s.poll n).discard) : Placed (s.setPoll n x) among := by
  refine h.of_marks (setPoll_keeps ..) (fun m => ?_) fun m => ?_
  · rw [setPoll_poll]
    split
    · next e => exact e ▸ hmark
    · rfl
  · rw [setPoll_poll]
    split
    · next e => exact e ▸ hdiscard
    · rfl

/-- One entry leaves every due list and is configured anew or stopped; in flight it stays (R117, R123, R125). -/
theorem undue_setPoll (h : Placed s among) {x : PollEntry} (hqueued : x.mark ≠ .queued)
    (hdiscard : x.discard = true → x.mark = .inFlight)
    (hinFlight : (s.poll n).mark = .inFlight → x.mark = .inFlight) : Placed ((s.undue n).setPoll n x) among := by
  have hallDue : ((s.undue n).setPoll n x).allDue = s.allDue.filter (· ≠ n) := mapDue_filter_allDue s _
  intro m
  by_cases hm : n = m
  · subst hm
    refine ⟨by rwa [setPoll_poll_self], ?_, fun g hg hc => ?_, (h n).once⟩
    · rw [setPoll_poll_self, if_neg hqueued, hallDue]
      exact List.count_eq_zero.mpr fun hmem => by simp at hmem
    · rw [setPoll_poll_self]
      exact hinFlight ((h n).inFlight g hg hc)
  · have hpoll : ((s.undue n).setPoll n x).poll m = s.poll m := setPoll_poll_ne _ hm x
    refine (h m).congr ?_ (by rw [hpoll]) (by rw [hpoll]) fun g hg hc => ⟨hg, hc⟩
    rw [hallDue, List.count_filter (by simpa using Ne.symm hm)]

/-- What one engine carries is left out of account. -/
theorem beside (h : AllPlaced s) (g : Seg) : Placed s (· ≠ g) := fun n =>
  (h n).congr rfl rfl rfl fun _ _ hc => ⟨trivial, hc⟩

/-- The engine that was left out takes a state in which it carries no poll. -/
theorem setEngine (h : Placed s (· ≠ g)) {x : Engine} (hx : ∀ y n, x.state = .active y → y.carrier ≠ .poll n) :
    AllPlaced (s.setEngine g x) := fun n =>
  (h n).congr rfl rfl rfl fun k _ hc => by
    by_cases hk : g = k
    · subst hk
      obtain ⟨y, hy, hcarrier⟩ := carriesPoll_iff.mp hc
      rw [setEngine_engine_self] at hy
      exact absurd hcarrier (hx y n hy)
    · exact ⟨Ne.symm hk, carriesPoll_setEngine_ne hk x ▸ hc⟩

/-- Engines change beside the polls they carry. -/
theorem of_engines (h : Placed s among) (k : Keeps s t l)
    (hcarries : ∀ g n, t.carriesPoll g n = true → s.carriesPoll g n = true) (md : .due ∉ l := by decide)
    (mp : .polls ∉ l := by decide) : Placed t among := fun n =>
  (h n).congr (by rw [allDue_congr fun g => k.dueOf g md]) (by rw [k.poll n mp]) (by rw [k.poll n mp])
    fun g hg hc => ⟨hg, hcarries g n hc⟩

/-- An engine changes beside its state. -/
theorem setEngine_of_state (h : Placed s among) {x : Engine} (hx : x.state = (s.engine g).state) :
    Placed (s.setEngine g x) among := by
  refine h.of_engines (setEngine_keeps ..) fun k n hc => (carriesPoll_congr ?_).symm.trans hc
  rw [setEngine_engine]
  split
  · next e => exact e ▸ hx
  · rfl

end Placed

end State

end Sys2Proof.Machine
end

section
/-! PROOF. The operations that queue, grant, complete, stop or drop a poll leave every entry where its mark says (R102,
R114, R116, R117, R120). -/

namespace Sys2Proof.Machine

set_option Elab.async false

open State

namespace State

variable {s t : State} {g k : Seg} {n m : PollIdx} {among : Seg → Prop} {x : Transaction}

/-! ### What each operation leaves of the entries -/

theorem completePoll_poll_ne (h : n ≠ m) (s : State) (st : Status) (data : List Byte) :
    (s.completePoll n st data).poll m = s.poll m := by
  unfold completePoll
  dsimp only
  split
  · rw [setPoll_poll_ne _ h]
  · rw [setPoll_poll_ne _ h]
    split <;> rfl

/-- A completed poll is nowhere, and its discard flag is clear (R120). -/
theorem completePoll_poll_self (s : State) (n : PollIdx) (st : Status) (data : List Byte) :
    ((s.completePoll n st data).poll n).mark = .none ∧ ((s.completePoll n st data).poll n).discard = false := by
  cases hd : (s.poll n).discard <;> simp [completePoll, hd]

theorem offlinePoll_mark (e : PollEntry) : (offlinePoll e).mark = .none := by
  unfold offlinePoll
  split <;> rfl

theorem offlinePoll_discard (e : PollEntry) : (offlinePoll e).discard = false := by
  unfold offlinePoll
  split
  · rfl
  · next hd => exact Bool.eq_false_iff.mpr hd

/-- A suspended poll has left its due list (R31). -/
theorem suspend_mark_ne_queued (e : PollEntry) : (suspend e).mark ≠ .queued := by
  unfold suspend
  dsimp only
  split
  · nofun
  · next hm => exact hm

/-- The poll that a decision grants stands in the due list (R74). -/
theorem candidate_poll_mem {c : Contender} (h : s.candidate g c = some (.poll n)) : n ∈ s.dueOf g := by
  unfold candidate at h
  split at h
  · simp at h
  · obtain ⟨m, hm, e⟩ := Option.map_eq_some_iff.mp h
    cases e
    exact List.mem_of_find?_eq_some hm

namespace Placed

/-! ### Becoming due and completing (R116, R120) -/

/-- An entry that is neither due nor carried completes. -/
theorem completePoll (h : Placed s among) (hqueued : (s.poll n).mark ≠ .queued)
    (hcarries : ∀ g, among g → s.carriesPoll g n = false) (st : Status) (data : List Byte) :
    Placed (s.completePoll n st data) among := by
  have hkeeps := completePoll_keeps s n st data
  have hallDue : (s.completePoll n st data).allDue = s.allDue := allDue_congr fun g => hkeeps.dueOf g
  have hcarried (g : Seg) (m : PollIdx) : (s.completePoll n st data).carriesPoll g m = s.carriesPoll g m :=
    carriesPoll_congr (by rw [hkeeps.engine])
  intro m
  by_cases hm : n = m
  · subst hm
    obtain ⟨hmark, hdiscard⟩ := completePoll_poll_self s n st data
    refine .of_not_carried hdiscard ?_ fun g hg => (hcarried g n).trans (hcarries g hg)
    rw [hallDue, hmark]
    exact (h n).not_due hqueued
  · have hpoll := completePoll_poll_ne hm s st data
    exact (h m).congr (by rw [hallDue]) (by rw [hpoll]) (by rw [hpoll]) fun g hg hc => ⟨hg, hcarried g m ▸ hc⟩

/-- A poll joins the due list of its segment when it is nowhere else. -/
theorem joinDue (h : Placed s among) (hmark : (s.poll n).mark = .none) {x : PollEntry} (hx : x.mark = .queued)
    (hdiscard : x.discard = (s.poll n).discard) (g : Seg) :
    Placed ((s.setPoll n x).setDue g (s.dueOf g ++ [n])) among := by
  have hcount (m : PollIdx) := count_allDue_setDue (s.setPoll n x) g (s.dueOf g ++ [n]) m
  have hallDue : (s.setPoll n x).allDue = s.allDue := rfl
  simp only [setPoll_dueOf, List.count_append, hallDue] at hcount
  have hidle : (s.poll n).mark ≠ .inFlight := by simp [hmark]
  intro m
  by_cases hm : n = m
  · subst hm
    refine .of_not_carried ?_ ?_ fun g hg => (h n).not_carried hidle hg
    · rw [setDue_poll, setPoll_poll_self]
      exact hdiscard.trans ((h n).not_discarded hidle)
    · have hzero := (h n).not_due (by simp [hmark])
      have hone := hcount n
      rw [List.count_singleton_self] at hone
      rw [setDue_poll, setPoll_poll_self, if_pos hx]
      omega
  · have hpoll : ((s.setPoll n x).setDue g (s.dueOf g ++ [n])).poll m = s.poll m := setPoll_poll_ne _ hm x
    refine (h m).congr ?_ (by rw [hpoll]) (by rw [hpoll]) fun k hk hc => ⟨hk, hc⟩
    have hnone := hcount m
    rw [List.count_singleton, if_neg (by simpa using hm)] at hnone
    omega

theorem becomeDue (h : Placed s among) (n : PollIdx) : Placed (s.becomeDue n) among := by
  unfold State.becomeDue
  dsimp only
  split
  · exact h.setPoll rfl rfl
  · next hmark =>
    have hnone : (s.poll n).mark = .none := by simpa using hmark
    split
    · have hset : Placed (s.setPoll n { s.poll n with countdown := (s.poll n).config.period }) among :=
        h.setPoll rfl rfl
      refine hset.completePoll ?_ (fun g hg => (h n).not_carried ?_ hg) _ _
      · simp [hnone]
      · simp [hnone]
    · refine h.joinDue hnone ?_ ?_ _
      · rfl
      · rfl

theorem countdown (h : Placed s among) (n : PollIdx) : Placed (s.countdown n) among := by
  unfold State.countdown
  dsimp only
  split
  · split
    · exact h.setPoll rfl rfl
    · exact h.becomeDue n
  · exact h

/-! ### The poll frames (R123, R124, R125) -/

theorem pollSet (h : Placed s among) (n : PollIdx) (f : PollFields) : Placed (s.pollSet n f).state among := by
  unfold State.pollSet
  split
  · exact h
  · next c _ =>
    split
    · refine h.undue_setPoll ?_ (fun hd => ?_) fun hm => ?_
      · unfold PollEntry.configured
        dsimp only
        split <;> nofun
      · exact if_pos (by simpa [PollEntry.configured] using hd)
      · exact if_pos hm
    · exact h

theorem pollStart (h : Placed s among) (n : PollIdx) : Placed (s.pollStart n).state among := by
  unfold State.pollStart
  dsimp only
  split
  · dsimp only
    split
    · exact h
    · exact h.setPoll rfl rfl
  · exact h

theorem pollStop (h : Placed s among) (n : PollIdx) : Placed (s.pollStop n).state among := by
  refine h.undue_setPoll ?_ (fun hd => ?_) fun hm => ?_
  · dsimp only
    split
    · nofun
    · next hm => exact hm
  · have hm := (h n).discard hd
    simp [hm]
  · simp [hm]

/-! ### The sweep of a route (R31) -/

theorem sweep (h : Placed s among) (i : RouteIdx) : Placed (s.sweep i) among := by
  have hkeeps := sweep_keeps s i
  have hallDue : (s.sweep i).allDue = s.allDue.filter fun n => !suspends i (s.poll n) := by
    simp [allDue, sweep_dueOf]
  have hcarried (g : Seg) (n : PollIdx) : (s.sweep i).carriesPoll g n = s.carriesPoll g n :=
    carriesPoll_congr (by rw [hkeeps.engine])
  intro n
  have hpoll := sweep_poll s i n
  cases hs : suspends i (s.poll n) with
  | false =>
    rw [hs, if_neg Bool.false_ne_true] at hpoll
    refine (h n).congr ?_ (by rw [hpoll]) (by rw [hpoll]) fun g hg hc => ⟨hg, hcarried g n ▸ hc⟩
    rw [hallDue, List.count_filter (by simpa using hs)]
  | true =>
    rw [hs, if_pos rfl] at hpoll
    have hinFlight (hm : (s.poll n).mark = .inFlight) : ((s.sweep i).poll n).mark = .inFlight := by
      simp [hpoll, suspend, hm]
    refine ⟨fun hd => ?_, ?_, fun g hg hc => ?_, fun g k hg hk hcg hck => ?_⟩
    · rw [hpoll] at hd
      exact hinFlight ((h n).discard hd)
    · rw [hpoll, if_neg (suspend_mark_ne_queued _), hallDue]
      exact List.count_eq_zero.mpr fun hmem => by simp [hs] at hmem
    · exact hinFlight ((h n).inFlight g hg (hcarried g n ▸ hc))
    · exact (h n).once g k hg hk (hcarried g n ▸ hcg) (hcarried k n ▸ hck)

theorem routeSet (h : Placed s among) (i : RouteIdx) (f : RouteFields) : Placed (s.routeSet i f).state among := by
  have hset (e : RouteEntry) : Placed (s.setRoute i e) among := h.keeps (setRoute_keeps ..)
  unfold State.routeSet
  split
  · exact h
  · split
    · exact h
    · split
      · exact (hset _).sweep i
      · exact hset _

theorem routeClear (h : Placed s among) (i : RouteIdx) : Placed (s.routeClear i).state among := by
  unfold State.routeClear
  split
  · exact Placed.sweep (h.keeps (setRoute_keeps ..)) i
  · exact h

/-! ### Going offline (R102) -/

/-- The due list of the segment is emptied, and its polls complete. -/
theorem goOffline (h : Placed s among) (g : Seg) : Placed (s.goOffline g) among := by
  have hkeeps := goOffline_keeps s g
  have hallDue : (s.goOffline g).allDue = (s.setDue g []).allDue :=
    allDue_congr fun k => (goOffline_dueOf s g k).trans (setDue_dueOf s g k []).symm
  have hcarried (k : Seg) (n : PollIdx) : (s.goOffline g).carriesPoll k n = s.carriesPoll k n :=
    carriesPoll_congr (by rw [hkeeps.engine])
  intro n
  have hcount := count_allDue_setDue s g [] n
  rw [List.count_nil, ← hallDue] at hcount
  by_cases hn : n ∈ s.dueOf g
  · have hpoll := goOffline_poll_of_mem s g (h.dueOf_nodup g) hn
    have hqueued := (h n).queued_of_mem hn
    have hone := (h n).due
    rw [if_pos hqueued] at hone
    have hpos := List.count_pos_iff.mpr hn
    refine .of_not_carried (by rw [hpoll, offlinePoll_discard]) ?_ fun k hk =>
      (hcarried k n).trans ((h n).not_carried (by simp [hqueued]) hk)
    rw [hpoll, offlinePoll_mark, if_neg nofun]
    omega
  · have hpoll := goOffline_poll_of_notMem s g hn
    rw [List.count_eq_zero.mpr hn] at hcount
    exact (h n).congr (by omega) (by rw [hpoll]) (by rw [hpoll]) fun k hk hc => ⟨hk, hcarried k n ▸ hc⟩

/-! ### The engine leaves its transaction (R94, R99, R101, R103) -/

/-- The engine enters a state without a transaction. -/
theorem setEngineState (h : Placed s (· ≠ g)) {st : EngineState} (hst : ∀ y, st ≠ .active y) :
    AllPlaced (s.setEngineState g st) := h.setEngine fun y _ hy => absurd hy (hst y)

theorem enterDisabled (h : Placed s (· ≠ g)) : AllPlaced (s.enterDisabled g) := by
  refine goOffline (h.setEngine ?_) g
  nofun

theorem enterFaulted (h : Placed s (· ≠ g)) (reason : FaultReason) : AllPlaced (s.enterFaulted g reason) := by
  refine goOffline (h.setEngine ?_) g
  nofun

theorem tryRecovery (h : Placed s (· ≠ g)) : AllPlaced (s.tryRecovery g) := by
  unfold State.tryRecovery
  dsimp only
  split
  · exact h.setEngine nofun
  · exact h.enterFaulted _

theorem leaveTo (h : Placed s (· ≠ g)) {st : EngineState} (hst : ∀ y, st ≠ .active y) : AllPlaced (s.leaveTo g st) := by
  unfold State.leaveTo
  split
  · exact h.enterDisabled
  · exact h.setEngineState hst

theorem afterPulse (h : Placed s (· ≠ g)) (n : Nat) (hub sda : Bool) : AllPlaced (s.afterPulse g n hub sda) := by
  unfold State.afterPulse
  split
  · exact h.setEngineState nofun
  · split
    · exact h.setEngineState nofun
    · split
      · exact h.setEngineState nofun
      · exact h.enterFaulted _

/-- The outcome is handed over while the engine still carries the transaction: a poll that completes is then nowhere,
though its engine is still ACTIVE with it. -/
theorem handOutcome (h : AllPlaced s) (hx : (s.engine g).state = .active x) (e : Ending) :
    Placed (s.handOutcome g x.carrier e) (· ≠ g) := by
  have hbeside := h.beside g
  unfold State.handOutcome
  split
  · split
    · exact hbeside.keeps (completeReq_keeps ..)
    · exact hbeside
  · next n hn =>
    have hcarried : s.carriesPoll g n = true := carriesPoll_iff.mpr ⟨x, hx, hn⟩
    have hmark := (h n).inFlight g trivial hcarried
    refine hbeside.completePoll (by simp [hmark]) (fun k hk => Bool.eq_false_iff.mpr fun hc => hk ?_) _ _
    exact (h n).once k g trivial trivial hc hcarried
  · exact hbeside

/-- The end of a transaction is counted before its outcome is handed over (R108). -/
theorem setEngine_handOutcome (h : AllPlaced s) (hx : (s.engine g).state = .active x) {y : Engine}
    (hy : y.state = (s.engine g).state) (e : Ending) :
    Placed ((s.setEngine g y).handOutcome g x.carrier e) (· ≠ g) :=
  (h.setEngine_of_state hy).handOutcome (by rw [setEngine_engine_self, hy, hx]) e

theorem endTransaction (h : AllPlaced s) (hx : (s.engine g).state = .active x) (e : Ending) :
    AllPlaced (s.endTransaction g x e) := by
  rw [endTransaction_eq]
  refine Placed.leaveTo (h.setEngine_handOutcome hx ?_ e) nofun
  rfl

theorem conflict (h : AllPlaced s) (hx : (s.engine g).state = .active x) (acks : List Bool) :
    AllPlaced (s.conflict g x acks) := by
  refine Placed.leaveTo (h.setEngine_handOutcome hx ?_ _) nofun
  rfl

theorem expireLimit (h : AllPlaced s) (hx : (s.engine g).state = .active x) (acks : List Bool) :
    AllPlaced (s.expireLimit g x acks) := by
  have hhanded (f : Stats → Stats) (e : Ending) : Placed ((s.count g f).handOutcome g x.carrier e) (· ≠ g) := by
    refine h.setEngine_handOutcome hx ?_ e
    rfl
  unfold State.expireLimit
  dsimp only
  split
  · exact (hhanded _ _).enterDisabled
  · exact (hhanded _ _).tryRecovery

/-! ### The segment frames (R103, R105, R106, R108) -/

theorem segmentSet (h : Placed s among) (g : Seg) (f : SegmentFields) : Placed (s.segmentSet g f).state among := by
  cases hc : segmentConfigOf f with
  | none =>
    rw [segmentSet_badValue s g hc]
    exact h
  | some c =>
    rw [segmentSet_ok s g hc]
    refine Placed.keeps ?_ (setArbiter_keeps ..)
    exact h.setEngine_of_state rfl

theorem segmentDisable (h : AllPlaced s) (g : Seg) : AllPlaced (s.segmentDisable g).state := by
  by_cases hdisabled : (s.engine g).state = .disabled
  · rw [segmentDisable_of_disabled hdisabled]
    exact h
  · cases hlater : (s.engine g).state.stopsLater with
    | true =>
      rw [segmentDisable_later hlater]
      exact h.setEngine_of_state rfl
    | false =>
      rw [segmentDisable_now hlater hdisabled]
      exact (h.beside g).enterDisabled

theorem segmentRestore (h : AllPlaced s) (g : Seg) : AllPlaced (s.segmentRestore g).state := by
  unfold State.segmentRestore
  split
  · refine Placed.keeps ?_ (segmentNotice_keeps ..)
    exact (h.beside g).setEngine nofun
  · exact h

/-! ### The grant (R78, R117) -/

/-- The granted poll leaves the due list for the engine. -/
theorem grantPoll (h : AllPlaced s) (hn : n ∈ s.dueOf g) : AllPlaced (s.grant g (.poll n)) := by
  have hqueued := (h n).queued_of_mem hn
  have hcount (m : PollIdx) : (s.grant g (.poll n)).allDue.count m + (s.dueOf g).count m =
      s.allDue.count m + ((s.dueOf g).erase n).count m := count_allDue_setDue s g ((s.dueOf g).erase n) m
  have hcarried {k : Seg} {m : PollIdx} (hc : (s.grant g (.poll n)).carriesPoll k m = true) :
      g = k ∧ n = m ∨ g ≠ k ∧ s.carriesPoll k m = true := by
    by_cases hk : g = k
    · subst hk
      obtain ⟨y, hy, hcarrier⟩ := carriesPoll_iff.mp hc
      rw [State.grant, setEngine_engine_self] at hy
      cases hy
      cases hcarrier
      exact .inl ⟨rfl, rfl⟩
    · exact .inr ⟨hk, carriesPoll_setEngine_ne (s := s) hk _ ▸ hc⟩
  intro m
  by_cases hm : n = m
  · subst hm
    have honly {k : Seg} (hc : (s.grant g (.poll n)).carriesPoll k n = true) : g = k := by
      obtain ⟨hk, -⟩ | ⟨-, hold⟩ := hcarried hc
      · exact hk
      · rw [(h n).not_carried (by simp [hqueued]) trivial] at hold
        exact absurd hold Bool.false_ne_true
    have hpoll : (s.grant g (.poll n)).poll n = { s.poll n with mark := .inFlight } := by simp [State.grant]
    refine ⟨fun _ => by rw [hpoll], ?_, fun _ _ _ => by rw [hpoll], fun k k' _ _ hc hc' =>
      (honly hc).symm.trans (honly hc')⟩
    have hone := (h n).due
    rw [if_pos hqueued] at hone
    have hpos := List.count_pos_iff.mpr hn
    have hleft := hcount n
    rw [List.count_erase_self] at hleft
    rw [hpoll, if_neg nofun]
    omega
  · have hpoll : (s.grant g (.poll n)).poll m = s.poll m := by simp [State.grant, setPoll_poll_ne _ hm]
    refine (h m).congr ?_ (by rw [hpoll]) (by rw [hpoll]) fun k _ hc => ⟨trivial, ?_⟩
    · have hleft := hcount m
      rw [List.count_erase_of_ne (Ne.symm hm)] at hleft
      omega
    · obtain ⟨-, hnm⟩ | ⟨-, hold⟩ := hcarried hc
      · exact absurd hnm hm
      · exact hold

/-- A request's grant puts no poll on the bus. -/
theorem grantRequest (h : AllPlaced s) (g : Seg) (p : Port) (r : Request) : AllPlaced (s.grant g (.request p r)) := by
  refine Placed.setEngine ((h.beside g).keeps (modifyPort_keeps s p (·.setReqState r.tag .inFlight)))
    fun y n hy hcarrier => ?_
  cases hy
  cases hcarrier

theorem runDecision (g : Seg) (fuel : Nat) : ∀ {s : State}, AllPlaced s → AllPlaced (State.runDecision g fuel s) := by
  induction fuel with
  | zero => exact fun h => h
  | succ fuel ih =>
    intro s h
    have harbiter (a : Arbiter) : AllPlaced (s.setArbiter g a) := h.keeps (setArbiter_keeps ..)
    unfold State.runDecision
    split
    · exact h
    · split
      · exact h
      · split
        · exact ih ((harbiter _).keeps (completeReq_keeps ..))
        · exact (harbiter _).grantRequest g _ _
      · next hc => exact (harbiter _).grantPoll (candidate_poll_mem hc)

/-! ### The resets and the millisecond mark (R109, R112, R130) -/

/-- A port reset cuts transactions of its port alone (R110). -/
theorem resetPort (h : Placed s among) (p : Port) : Placed (s.resetPort p) among := by
  refine h.of_engines (resetPort_keeps s p) fun g n hc => ?_
  obtain ⟨y, hy, hcarrier⟩ := carriesPoll_iff.mp hc
  rw [resetPort_engine] at hy
  by_cases hp : ∃ x, (s.engine g).state = .active x ∧ x.carrier = .port p
  · obtain ⟨x, hx, hport⟩ := hp
    rw [cutPort_of_carrier hx hport] at hy
    cases hy
    cases hcarrier
  · push Not at hp
    rw [cutPort_of_not_carrier hp] at hy
    exact carriesPoll_iff.mpr ⟨y, hy, hcarrier⟩

/-- After a HUB RESET every entry is nowhere, and what an engine still finishes is nobody's (R112, R130). -/
theorem hubReset (s : State) : Placed s.hubReset among := by
  have heffects := hubReset_effects s
  have hallDue : s.hubReset.allDue = [] := by simp [allDue, heffects.due]
  intro n
  have hpoll := heffects.polls n
  refine .of_not_carried (by rw [hpoll]) (by rw [hpoll, hallDue]; rfl) fun g _ => Bool.eq_false_iff.mpr fun hc => ?_
  obtain ⟨y, hy, hcarrier⟩ := carriesPoll_iff.mp hc
  rw [hubReset_engine] at hy
  obtain ⟨x, -, rfl⟩ := active_of_hubReset hy
  cases hcarrier

theorem countMark (h : Placed s among) : Placed s.countMark among := by
  refine h.of_engines (countMark_keeps s) fun g n hc => ?_
  obtain ⟨y, hy, hcarrier⟩ := carriesPoll_iff.mp hc
  rw [countMark_engine, afterMark] at hy
  dsimp only at hy
  split at hy
  · next x hx =>
    cases hy
    exact carriesPoll_iff.mpr ⟨x, hx, hcarrier⟩
  · cases hy
  · cases hy
  · exact carriesPoll_iff.mpr ⟨y, hy, hcarrier⟩

theorem idle (h : Placed s among) : Placed s.idle among := by
  unfold State.idle
  split
  · exact h
  · split
    · exact h.countMark.keeps (enqueue_keeps ..)
    · exact h.keeps (enqueue_keeps ..)

end Placed

end State

end Sys2Proof.Machine
end

section
/-! PROOF. Every command and every step leaves the poll entries where their marks say (R114, R117). -/

namespace Sys2Proof.Machine

set_option Elab.async false

open State

namespace State

variable {s t : State} {p : Port}

namespace Placed

theorem next {u : State} {among : Seg → Prop} (h : Placed u among)
    (e : (.next u : Host.Outcome State Fault Refusal) = .next t) : Placed t among := by
  cases e
  exact h

theorem claimedFrame (h : AllPlaced s) {k : FrameKind} {n : Nat} {b : Byte} {act : State → Fin n → Answer}
    (hact : ∀ s i, AllPlaced s → AllPlaced (act s i).state) : AllPlaced (Machine.claimedFrame p k b act s) := by
  have hframe : AllPlaced (s.noFrame p) := h.keeps (noFrame_keeps ..)
  cases hrun : s.running p with
  | false =>
    rw [Machine.claimedFrame, frameOf_not_running hrun]
    exact h
  | true =>
    by_cases hclaim : (s.sem 0).owner = some p
    · by_cases hb : b.toNat < n
      · rw [claimedFrame_acts hrun hclaim ⟨_, hb⟩ rfl]
        exact (hact _ _ hframe).keeps (answers_keeps ..)
      · rw [claimedFrame_of_le hrun hclaim (Nat.not_lt.mp hb)]
        exact h.keeps (answers_keeps ..)
    · rw [claimedFrame_unclaimed hrun hclaim]
      exact h.keeps (answers_keeps ..)

theorem frameEnd (h : AllPlaced s) {k : FrameKind} {act : Snapshot → State → State}
    (hact : ∀ x, (AllPlaced (s.noFrame p)) → AllPlaced (act x (s.noFrame p))) :
    AllPlaced (Machine.frameEnd p k act s) := by
  unfold Machine.frameEnd
  split
  · split
    · exact hact _ (h.keeps (noFrame_keeps ..))
    · exact h
  · exact h

theorem hubEvent (h : AllPlaced s) {act : State → State} (hact : AllPlaced (act s)) :
    AllPlaced (Machine.hubEvent act s) := by
  unfold Machine.hubEvent
  split
  · exact h
  · exact hact

theorem exec (h : AllPlaced s) {c : Instr} (e : Machine.exec c s = .next t) : AllPlaced t := by
  have hkeeps := exec_keeps e
  cases c with
  | routeSet p f => exact (h.claimedFrame fun _ i h => h.routeSet i f).next e
  | routeClear p b => exact (h.claimedFrame fun _ i h => h.routeClear i).next e
  | pollSet p f => exact (h.claimedFrame fun _ n h => h.pollSet n f).next e
  | pollStart p b => exact (h.claimedFrame fun _ n h => h.pollStart n).next e
  | pollStop p b => exact (h.claimedFrame fun _ n h => h.pollStop n).next e
  | segmentSet p f => exact (h.claimedFrame fun _ g h => h.segmentSet g f).next e
  | segmentDisable p b => exact (h.claimedFrame fun _ g h => h.segmentDisable g).next e
  | segmentRestore p b => exact (h.claimedFrame fun _ g h => h.segmentRestore g).next e
  | statsClear p b =>
    rw [exec_statsClear] at e
    refine (h.claimedFrame fun _ g h => ?_).next e
    exact h.setEngine_of_state rfl
  | portResetNormalEnd p =>
    refine (h.frameEnd fun _ h => ?_).next e
    exact h.resetPort p
  | hubResetNormalEnd p =>
    refine (h.frameEnd fun x h => ?_).next e
    split
    · exact .hubReset _
    · exact h
  | prstxnFall p =>
    refine Placed.next ?_ e
    split
    · exact (h.resetPort p).keeps (modifyPort_keeps ..)
    · exact h.keeps (modifyPort_keeps ..)
  | resetnRise a b c =>
    obtain ⟨u, hu, hvalues⟩ := exec_resetnRise_values s #v[a, b, c]
    exact (dueSound_iff.mp hvalues.dueSound).next (hu.symm.trans e)
  | arbiterDecision g =>
    refine (h.hubEvent ?_).next e
    split
    · exact h.runDecision g _
    · exact h
  | transactionEnd g acks data =>
    refine (h.hubEvent ?_).next e
    split
    · next x hx =>
      split
      · exact h
      · exact h.endTransaction hx _
    · exact h
  | lineConflict g acks =>
    refine (h.hubEvent ?_).next e
    split
    · next x hx => exact h.conflict hx acks
    · exact h
  | timeout g acks =>
    refine (h.hubEvent ?_).next e
    split
    · next x hx => exact h.expireLimit hx acks
    · exact h
  | cutEnd g =>
    refine (h.hubEvent ?_).next e
    split
    · split
      · next cause _ => exact (h.beside g).leaveTo (by cases cause <;> nofun)
      all_goals exact h
    · exact h
  | lineLowInIdle g | freeWindowComplete g | freeWindowRestart g | recoverySclHigh g sda =>
    refine (h.hubEvent ?_).next e
    split
    · exact (h.beside g).setEngineState nofun
    · exact h
  | limitWindowEnd g =>
    refine (h.hubEvent ?_).next e
    split
    · exact (h.beside g).tryRecovery
    · exact h
  | recoverySclTimeout g =>
    refine (h.hubEvent ?_).next e
    split
    · split
      · exact (h.beside g).enterDisabled
      · exact (h.beside g).enterFaulted _
    · exact h
  | recoveryPulseEnd g sda =>
    refine (h.hubEvent ?_).next e
    split
    · split
      · exact (h.beside g).enterDisabled
      · exact (h.beside g).afterPulse _ _ sda
    · exact h
  | recoveryStopEnd g =>
    refine (h.hubEvent ?_).next e
    split
    · exact (h.beside g).leaveTo nofun
    · exact h
  | pollCountdown n => exact (h.hubEvent (h.countdown n)).next e
  | pollDue n =>
    refine (h.hubEvent ?_).next e
    split
    · exact h.becomeDue n
    · exact h
  | ageIncrease =>
    refine (h.hubEvent (h.of_marks (mapPolls_keeps ..) (fun n => ?_) fun n => ?_)).next e
    · rw [mapPolls_poll]
    · rw [mapPolls_poll]
  | _ =>
    dsimp only [changes] at hkeeps
    exact h.keeps hkeeps

end Placed

end State

/-- Settles O56: a poll enters a due list, an engine or neither only as its mark changes with it, and the flag is set
only by POLL SET on a run in flight. -/
theorem stepKeepsDueListsSound : Obligations.StepKeepsDueListsSound := by
  intro s t h e
  rw [dueSound_iff] at h ⊢
  unfold step at e
  split at e
  · exact h.idle.next e
  · next rest _ =>
    have htaken : AllPlaced { s with pending := rest } := fun n =>
      (h n).congr rfl rfl rfl fun _ hg hc => ⟨hg, hc⟩
    exact Placed.exec htaken e

end Sys2Proof.Machine
end

section
/-! PROOF. POLL SET, POLL START and POLL STOP: the checks in order, then what they do to the entry (R123, R124,
R125). -/

namespace Sys2Proof.Machine

set_option Elab.async false

open State

variable {s : State} {p : Port} {f : PollFields} {c : PollConfig} {n : PollIdx} {b : Byte}

/-! ### The values a POLL SET carries (R123) -/

/-- Every value a POLL SET carries is in its range. -/
def PollFits (f : PollFields) : Prop :=
  f.route.toNat ≤ 31 ∧ f.pointerCount.toNat ≤ 2 ∧ 1 ≤ f.readLen.toNat ∧ f.readLen.toNat ≤ 8 ∧
  1 ≤ f.period.toNat ∧ f.period.toNat ≤ 60000 ∧ f.notify.toNat ≤ 7

/-- The configuration holds the carried values; an unused pointer byte is stored as 0x00. -/
structure PollCarries (f : PollFields) (c : PollConfig) : Prop where
  route : c.route.val = f.route.toNat
  pointerCount : c.pointerCount.val = f.pointerCount.toNat
  pointer0 : c.pointer0 = if 1 ≤ f.pointerCount.toNat then f.pointer0 else 0x00
  pointer1 : c.pointer1 = if 2 ≤ f.pointerCount.toNat then f.pointer1 else 0x00
  readLen : c.readLen = f.readLen.toNat
  period : c.period = f.period.toNat
  notify : c.notify = f.notify.setWidth 3

theorem readNotify_some {x : BitVec 3} (h : readNotify b = some x) : b.toNat ≤ 7 ∧ x = b.setWidth 3 := by
  obtain ⟨hlt, hx⟩ := Option.ite_none_right_eq_some.mp h
  exact ⟨Nat.le_of_lt_succ hlt, (Option.some.inj hx).symm⟩

theorem readNotify_of_le (h : b.toNat ≤ 7) : readNotify b = some (b.setWidth 3) := if_pos (Nat.lt_succ_of_le h)

theorem pollConfigOf_some (h : pollConfigOf f = some c) : PollFits f ∧ PollCarries f c := by
  unfold pollConfigOf at h
  split at h
  · next route count notify hroute hcount hnotify =>
    obtain ⟨⟨hlen, hlen', hperiod, hperiod'⟩, hc⟩ := Option.ite_none_right_eq_some.mp h
    obtain rfl := Option.some.inj hc
    obtain ⟨hrouteLt, hrouteEq⟩ := readIdx_some hroute
    obtain ⟨hcountLt, hcountEq⟩ := readIdx_some hcount
    obtain ⟨hnotifyLe, hnotifyEq⟩ := readNotify_some hnotify
    exact ⟨⟨Nat.le_of_lt_succ hrouteLt, Nat.le_of_lt_succ hcountLt, hlen, hlen', hperiod, hperiod', hnotifyLe⟩,
      hrouteEq, hcountEq, by rw [hcountEq], by rw [hcountEq], rfl, rfl, hnotifyEq⟩
  · cases h

theorem pollConfigOf_of_fits (h : PollFits f) : ∃ c, pollConfigOf f = some c := by
  obtain ⟨hroute, hcount, hlen, hlen', hperiod, hperiod', hnotify⟩ := h
  rw [pollConfigOf, readIdx_of_lt ⟨_, Nat.lt_succ_of_le hroute⟩ rfl, readIdx_of_lt ⟨_, Nat.lt_succ_of_le hcount⟩ rfl,
    readNotify_of_le hnotify]
  exact ⟨_, if_pos ⟨hlen, hlen', hperiod, hperiod'⟩⟩

theorem pollConfigOf_of_not_fits (h : ¬PollFits f) : pollConfigOf f = none :=
  Option.eq_none_iff_forall_ne_some.mpr fun _ hc => h (pollConfigOf_some hc).1

/-! ### The frames -/

theorem exec_pollSet (s : State) (p : Port) (f : PollFields) : exec (.pollSet p f) s =
    .next (claimedFrame p .pollSet f.index (fun s n => s.pollSet n f) s) := rfl

theorem exec_pollStart (s : State) (p : Port) (b : Byte) : exec (.pollStart p b) s =
    .next (claimedFrame p .pollStart b (fun s n => s.pollStart n) s) := rfl

theorem exec_pollStop (s : State) (p : Port) (b : Byte) : exec (.pollStop p b) s =
    .next (claimedFrame p .pollStop b (fun s n => s.pollStop n) s) := rfl

/-- With the claim and an index in range a frame whose block changes the hub beside the port's frame in progress leaves
that change and the reply. -/
theorem claimedFrame_effect {n : Nat} {k : FrameKind} {act : State → Fin n → Answer} (hrun : s.running p = true)
    (hclaim : (s.sem 0).owner = some p) (i : Fin n) (hb : b.toNat = i.val) {u : State} {reply : List Byte}
    (hact : act (s.noFrame p) i = ⟨u.noFrame p, reply, .none⟩) :
    claimedFrame p k b act s = u.answers p k reply := by
  rw [claimedFrame_acts hrun hclaim i hb, hact, noFrame_answers]

namespace State

/-! ### The blocks after the claim and index checks -/

theorem pollSet_badValue (s : State) (n : PollIdx) (h : pollConfigOf f = none) :
    s.pollSet n f = refuse s .pollSet .badValue := by
  rw [State.pollSet, h]

theorem pollSet_noRoute (n : PollIdx) (h : pollConfigOf f = some c) (hv : (s.route c.route).valid = false) :
    s.pollSet n f = refuse s .pollSet .noRoute := by
  simp [State.pollSet, h, hv]

theorem pollSet_ok (n : PollIdx) (h : pollConfigOf f = some c) (hv : (s.route c.route).valid = true) :
    s.pollSet n f = ⟨(s.undue n).setPoll n ((s.poll n).configured c), answer .pollSet .ok, .none⟩ := by
  simp [State.pollSet, h, hv]

theorem pollStart_noRoute (hv : (s.route (s.poll n).config.route).valid = false) :
    s.pollStart n = refuse s .pollStart .noRoute := by
  simp [State.pollStart, hv]

/-- An ACTIVE entry runs on (R124). -/
theorem pollStart_active (hv : (s.route (s.poll n).config.route).valid = true) (hs : (s.poll n).state = .active) :
    s.pollStart n = ⟨s, answer .pollStart .ok, .none⟩ := by
  simp [State.pollStart, hv, hs]

theorem pollStart_starts (hv : (s.route (s.poll n).config.route).valid = true) (hs : (s.poll n).state ≠ .active) :
    s.pollStart n = ⟨s.setPoll n { s.poll n with state := .active, countdown := (s.poll n).config.period },
      answer .pollStart .ok, .none⟩ := by
  simp [State.pollStart, hv, hs]

end State

/-- Settles O29, by the first check that fails. -/
theorem pollSetChecksThenConfigures : Obligations.PollSetChecksThenConfigures := by
  refine fun s p f hrun => ⟨fun hno => ?_, fun hclaim => ⟨fun hb => ?_, fun n hb => ⟨fun hout => ?_,
    fun i hi hfits => ?_⟩⟩⟩
  · rw [exec_pollSet, claimedFrame_unclaimed hrun hno]
    rfl
  · rw [exec_pollSet, claimedFrame_of_le hrun hclaim hb]
    rfl
  · rw [exec_pollSet, claimedFrame_effect hrun hclaim n hb (pollSet_badValue _ n (pollConfigOf_of_not_fits hout))]
    rfl
  · obtain ⟨c, hc⟩ := pollConfigOf_of_fits hfits
    obtain ⟨-, hcarries⟩ := pollConfigOf_some hc
    obtain rfl : c.route = i := Fin.ext (hcarries.route.trans hi)
    refine ⟨fun hv => ?_, fun hv => ⟨c, rfl, hcarries.pointerCount, hcarries.pointer0, hcarries.pointer1,
      hcarries.readLen, hcarries.period, hcarries.notify, ?_⟩⟩
    · rw [exec_pollSet, claimedFrame_effect hrun hclaim n hb (pollSet_noRoute (s := s.noFrame p) n hc hv)]
      rfl
    · rw [exec_pollSet, claimedFrame_effect (u := (s.undue n).setPoll n ((s.poll n).configured c)) hrun hclaim n hb
        (pollSet_ok (s := s.noFrame p) n hc hv)]
      rfl

/-- Settles O30, by the first check that fails, and POLL START by the entry's state. -/
theorem pollStartAndStop : Obligations.PollStartAndStop := by
  refine fun s p b hrun => ⟨fun hno => ⟨?_, ?_⟩, fun hclaim => ⟨fun hb => ⟨?_, ?_⟩, fun n hb =>
    ⟨fun hv => ?_, fun hv hs => ?_, fun hv hs => ?_, ?_⟩⟩⟩
  · rw [exec_pollStart, claimedFrame_unclaimed hrun hno]
    rfl
  · rw [exec_pollStop, claimedFrame_unclaimed hrun hno]
    rfl
  · rw [exec_pollStart, claimedFrame_of_le hrun hclaim hb]
    rfl
  · rw [exec_pollStop, claimedFrame_of_le hrun hclaim hb]
    rfl
  · rw [exec_pollStart, claimedFrame_effect hrun hclaim n hb (pollStart_noRoute (s := s.noFrame p) hv)]
    rfl
  · rw [exec_pollStart, claimedFrame_effect hrun hclaim n hb (pollStart_active (s := s.noFrame p) hv hs)]
    rfl
  · rw [exec_pollStart, claimedFrame_effect
      (u := s.setPoll n { s.poll n with state := .active, countdown := (s.poll n).config.period }) hrun hclaim n hb
      (pollStart_starts (s := s.noFrame p) hv hs)]
    rfl
  · rw [exec_pollStop, claimedFrame_effect hrun hclaim n hb (u := (s.undue n).setPoll n
      { s.poll n with state := .off, mark := if (s.poll n).mark = .queued then .none else (s.poll n).mark }) rfl]
    rfl

end Sys2Proof.Machine
end

section
/-! PROOF. The countdown of a poll entry, its becoming due, and the ages of the results (R116, R122, log 12, log 13). -/

namespace Sys2Proof.Machine

set_option Elab.async false

open State

namespace State

variable {s : State} {n : PollIdx}

/-! ### The events -/

theorem exec_pollCountdown (hheld : s.held = false) (n : PollIdx) :
    exec (.pollCountdown n) s = .next (s.countdown n) := congrArg _ (hubEvent_running hheld)

theorem exec_pollDue (hheld : s.held = false) (n : PollIdx) : exec (.pollDue n) s =
    .next (if (s.poll n).state = .active ∧ (s.poll n).countdown ≤ 1 then s.becomeDue n else s) :=
  congrArg _ (hubEvent_running hheld)

theorem exec_ageIncrease (hheld : s.held = false) : exec .ageIncrease s =
    .next (s.mapPolls fun e => { e with result := { e.result with age := satInc 65535 e.result.age } }) :=
  congrArg _ (hubEvent_running hheld)

/-! ### One decrease (R116) -/

theorem countdown_of_not_active (hs : (s.poll n).state ≠ .active) : s.countdown n = s := if_neg hs

theorem countdown_of_lt (hs : (s.poll n).state = .active) (hlt : 1 < (s.poll n).countdown) :
    s.countdown n = s.setPoll n { s.poll n with countdown := (s.poll n).countdown - 1 } := by
  simp [countdown, hs, hlt]

theorem countdown_of_le (hs : (s.poll n).state = .active) (hle : (s.poll n).countdown ≤ 1) :
    s.countdown n = s.becomeDue n := by
  simp [countdown, hs, Nat.not_lt.mpr hle]

/-! ### Becoming due, by the mark and the segment (R116) -/

/-- With a run queued or in flight an overrun is counted. -/
theorem becomeDue_of_mark (hmark : (s.poll n).mark ≠ .none) : s.becomeDue n = s.setPoll n
    { s.poll n with countdown := (s.poll n).config.period, overrun := min ((s.poll n).overrun + 1) 255 } := if_pos hmark

/-- On an offline segment the run completes SEGMENT_OFFLINE at once. -/
theorem becomeDue_of_offline (hmark : (s.poll n).mark = .none) (hdiscard : (s.poll n).discard = false)
    (hoff : s.offline (s.pollKey n).seg = true) : s.becomeDue n = s.setPoll n
      { s.poll n with
        countdown := (s.poll n).config.period
        result := { (s.poll n).result with
          status := some .segmentOffline, sequence := (s.poll n).result.sequence + 1 } } := by
  have hdue : s.becomeDue n =
      (s.setPoll n { s.poll n with countdown := (s.poll n).config.period }).completePoll n .segmentOffline [] := by
    simp [becomeDue, hmark, hoff]
  rw [hdue, completePoll_segmentOffline, setPoll_poll_self, setPoll_setPoll]
  simp [offlinePoll, hmark, hdiscard]

/-- Else it joins the due list of the segment. -/
theorem becomeDue_of_online (hmark : (s.poll n).mark = .none) (hon : s.offline (s.pollKey n).seg = false) :
    s.becomeDue n = (s.setPoll n
      { s.poll n with countdown := (s.poll n).config.period, mark := .queued }).setDue (s.pollKey n).seg
        (s.dueOf (s.pollKey n).seg ++ [n]) := by
  simp [becomeDue, hmark, hon]

end State

/-- Settles O31: the decrease by the entry's state and countdown, the becoming due by its mark and its segment. -/
theorem marksCountDownAndAgePolls : Obligations.MarksCountDownAndAgePolls := by
  refine ⟨fun s n hheld => ?_, fun s hheld => exec_ageIncrease hheld⟩
  have hcountdown := exec_pollCountdown hheld n
  have hpollDue := exec_pollDue hheld n
  refine ⟨fun hs => ?_, fun hs hlt => ?_, fun hs hle => ?_, fun hnot => ?_⟩
  · rw [hcountdown, countdown_of_not_active hs]
  · rw [hcountdown, countdown_of_lt hs hlt]
  · rw [hpollDue, if_pos ⟨hs, hle⟩, hcountdown, countdown_of_le hs hle]
    refine ⟨rfl, fun hmark => ?_, fun hmark hdiscard hoff => ?_, fun hmark hfaulted hdisabled => ?_⟩
    · rw [becomeDue_of_mark hmark]
    · rw [becomeDue_of_offline hmark hdiscard (offline_iff.mpr hoff)]
    · rw [becomeDue_of_online hmark (Bool.eq_false_iff.mpr fun hoff =>
        (offline_iff.mp hoff).elim hfaulted hdisabled)]
      rfl
  · rw [hpollDue, if_neg]
    rintro ⟨hs, hle⟩
    exact hnot.elim (· hs) (Nat.not_lt.mpr hle)

end Sys2Proof.Machine
end

section
/-! PROOF. The frames that read a port's result store: what they report, what is added while they are in progress, and
what their normal ends remove (R131, R133 to R140). -/

namespace Sys2Proof.Machine

set_option Elab.async false

open State PortState

/-! ### What is added while a frame is in progress (R135, R137, R139) -/

namespace PortState

variable {ps : PortState} {f : Frame}

theorem noteFrame_frame (hf : ps.frame = some f) (note : Snapshot → Snapshot) :
    (ps.noteFrame note).frame = some { f with snapshot := note f.snapshot } := by
  simp [noteFrame, hf]

theorem enterFault_frame (h : ps.inReset = false) (r : Request) (st : Status) (ack : Nat) :
    (ps.enterFault r st ack).frame = (ps.noteFrame Snapshot.noteFault).frame := by
  simp [enterFault, h]

theorem addNotices_frame (h : ps.inReset = false) (g : NoticeSets) :
    (ps.addNotices g).frame = (ps.noteFrame (·.noteAdded g)).frame := by
  simp [addNotices, h]

/-- A hold-end record is stored while fewer than four are (R137). -/
theorem addHoldEnd_of_lt (h : ps.inReset = false) (hlen : ps.holdEnds.length < 4) (e : HoldEnd) :
    ps.addHoldEnd e = { ps with holdEnds := ps.holdEnds ++ [e] } := by
  simp [addHoldEnd, h, hlen]

/-- A fifth is counted only, by the port and by a HOLD ENDS frame in progress (R137, R138). -/
theorem addHoldEnd_of_full (h : ps.inReset = false) (hlen : 4 ≤ ps.holdEnds.length) (e : HoldEnd) :
    ps.addHoldEnd e = { ps.noteFrame Snapshot.noteLost with lostEnds := min (ps.lostEnds + 1) 255 } := by
  simp [addHoldEnd, h, Nat.not_lt.mpr hlen, satInc]

end PortState

variable {s : State} {p : Port} {f : Frame}

/-! ### The ends of the frames (R133, R158) -/

theorem exec_frameEndsEarly (hrun : s.running p = true) : exec (.frameEndsEarly p) s = .next (s.noFrame p) :=
  congrArg _ (if_pos hrun)

theorem exec_fetchNormalEnd (hrun : s.running p = true) (hf : (s.port p).frame = some f) (hk : f.kind = some .fetch) :
    exec (.fetchNormalEnd p) s = .next (fetchRemoval p f.snapshot (s.noFrame p)) :=
  congrArg _ (frameEnd_running hrun hf hk)

theorem exec_postedFaultNormalEnd (hrun : s.running p = true) (hf : (s.port p).frame = some f)
    (hk : f.kind = some .postedFault) :
    exec (.postedFaultNormalEnd p) s = .next (postedFaultRemoval p f.snapshot (s.noFrame p)) :=
  congrArg _ (frameEnd_running hrun hf hk)

theorem exec_holdEndsNormalEnd (hrun : s.running p = true) (hf : (s.port p).frame = some f)
    (hk : f.kind = some .holdEnds) :
    exec (.holdEndsNormalEnd p) s = .next (holdEndsRemoval p f.snapshot (s.noFrame p)) :=
  congrArg _ (frameEnd_running hrun hf hk)

theorem exec_noticesNormalEnd (hrun : s.running p = true) (hf : (s.port p).frame = some f)
    (hk : f.kind = some .notices) :
    exec (.noticesNormalEnd p) s = .next (noticesRemoval p f.snapshot (s.noFrame p)) :=
  congrArg _ (frameEnd_running hrun hf hk)

/-! ### FETCH (R134) -/

theorem exec_fetch_of_nil (hrun : s.running p = true) (h : (s.port p).results = []) :
    exec (.fetch p) s = .next (s.answers p .fetch (answer .fetch .empty)) :=
  congrArg _ (frameOf_reading hrun (by simp only [noFrame_port_results, h]))

theorem exec_fetch_of_cons {r : Result} {rest : List Result} (hrun : s.running p = true)
    (h : (s.port p).results = r :: rest) : exec (.fetch p) s =
      .next (s.answers p .fetch (answer .fetch .ok (fetchFields (rest.length + 1) r)) (.fetch r)) :=
  congrArg _ (frameOf_reading hrun (by simp only [noFrame_port_results, h]))

/-- The data of a FETCH reply is filled up to the 32 bytes of the longest read (R167). -/
theorem answer_fetch {r : Result} (h : r.readData.length ≤ 32) (stored : Nat) :
    answer .fetch .ok (fetchFields stored r) =
      [0x00, byte stored, r.tag, r.kind.code, r.status.code, byte r.ackCount, byte (r.holdRemaining.getD 0),
        byte r.readData.length] ++ r.readData ++ List.replicate (32 - r.readData.length) 0x00 := by
  have hlen : (ReplyStatus.ok.code :: fetchFields stored r).length = 8 + r.readData.length := by
    simp [fetchFields]
    omega
  have hpad : FrameKind.fetch.replyLen - (8 + r.readData.length) = 32 - r.readData.length := by
    simp only [FrameKind.replyLen]
    omega
  rw [answer, padTo_eq (by simp only [hlen, FrameKind.replyLen]; omega), hlen, hpad]
  rfl

/-- The record that was returned is removed only while it is the head. -/
theorem fetchRemoval_noFrame (s : State) (p : Port) (r : Result) :
    fetchRemoval p (.fetch r) (s.noFrame p) = s.modifyPort p fun ps =>
      { ps with
        frame := none
        results := if ps.results.head? = some r then ps.results.tail else ps.results } := by
  rw [fetchRemoval, noFrame_modifyPort]
  refine congrArg _ (funext fun ps => ?_)
  by_cases hhead : ps.results.head? = some r
  · rw [if_pos hhead, if_pos hhead]
  · rw [if_neg hhead, if_neg hhead]

/-- Settles O18: the report by whether a record is stored, the removal by what the snapshot returned. -/
theorem fetchReportsThenRemoves : Obligations.FetchReportsThenRemoves := by
  refine ⟨fun s p hrun hnil => ?_, fun s p r rest hrun hcons hdata => ?_, fun s p f r hrun hf hk hsnap => ?_,
    fun s p f hrun hf hk hsnap => ?_, fun s p hrun => exec_frameEndsEarly hrun⟩
  · rw [exec_fetch_of_nil hrun hnil]
    rfl
  · rw [exec_fetch_of_cons hrun hcons, answer_fetch hdata]
  · rw [exec_fetchNormalEnd hrun hf hk, hsnap, fetchRemoval_noFrame]
  · rw [exec_fetchNormalEnd hrun hf hk, hsnap]
    rfl

/-! ### POSTED FAULT (R136) -/

theorem exec_postedFault_of_none (hrun : s.running p = true) (h : (s.port p).postedFault = none) :
    exec (.postedFault p) s = .next (s.answers p .postedFault (answer .postedFault .empty)) :=
  congrArg _ (frameOf_reading hrun (by simp only [noFrame_port_postedFault, h]))

theorem exec_postedFault_of_some {x : PostedFault} (hrun : s.running p = true)
    (h : (s.port p).postedFault = some x) : exec (.postedFault p) s =
      .next (s.answers p .postedFault (answer .postedFault .ok (postedFaultFields x)) (.postedFault false)) :=
  congrArg _ (frameOf_reading hrun (by simp only [noFrame_port_postedFault, h]))

/-- Settles O19: the report by whether the record is empty, the removal by whether the snapshot noted a failure. -/
theorem postedFaultReportsThenRemoves : Obligations.PostedFaultReportsThenRemoves := by
  refine ⟨fun s p hrun hnone => ?_, fun s p x hrun hsome => ?_, fun s p f hrun hf hk => ⟨fun hsnap => ?_, ?_⟩,
    fun ps r st ack f b hreset hf hsnap => ?_⟩
  · rw [exec_postedFault_of_none hrun hnone]
    rfl
  · rw [exec_postedFault_of_some hrun hsome]
    rfl
  · rw [exec_postedFaultNormalEnd hrun hf hk, hsnap, postedFaultRemoval, noFrame_modifyPort]
  · rw [exec_postedFaultNormalEnd hrun hf hk]
    rintro (hsnap | hsnap) <;> rw [hsnap] <;> rfl
  · rw [enterFault_frame hreset, noteFrame_frame hf, hsnap]
    rfl

/-! ### HOLD ENDS (R138) -/

theorem exec_holdEnds (hrun : s.running p = true) : exec (.holdEnds p) s =
    .next (s.answers p .holdEnds (answer .holdEnds .ok (holdEndsFields (s.port p).holdEnds (s.port p).lostEnds))
      (.holdEnds (s.port p).holdEnds.length 0)) :=
  congrArg _ (frameOf_reading hrun (by simp only [noFrame_port_holdEnds, noFrame_port_lostEnds]))

theorem flatMap_holdEndFields_length (ends : List HoldEnd) :
    (ends.flatMap holdEndFields).length = 3 * ends.length := by
  simp [List.length_flatMap, holdEndFields, Nat.mul_comm]

/-- The reply of HOLD ENDS has four record places before the lost count (R138). -/
theorem answer_holdEnds {ends : List HoldEnd} (h : ends.length ≤ 4) (lost : Nat) :
    answer .holdEnds .ok (holdEndsFields ends lost) =
      [0x00, byte ends.length] ++ ends.flatMap holdEndFields ++ List.replicate (12 - 3 * ends.length) 0x00 ++
        [byte lost] := by
  have hplaces := flatMap_holdEndFields_length ends
  have hlen : (ReplyStatus.ok.code :: holdEndsFields ends lost).length = FrameKind.holdEnds.replyLen := by
    simp [holdEndsFields, padTo_length, FrameKind.replyLen]
  rw [answer, padTo_eq hlen.le, hlen, Nat.sub_self, List.replicate_zero, List.append_nil, holdEndsFields,
    padTo_eq (by omega), hplaces]
  rfl

/-- Settles O20: the removal is of the records the snapshot counted, which stand first in the list. -/
theorem holdEndsReportsThenRemoves : Obligations.HoldEndsReportsThenRemoves := by
  refine ⟨fun s p hrun hlen => ?_, fun s p f count lost hrun hf hk hsnap => ?_, fun s p f hrun hf hk hsnap => ?_,
    fun ps e hreset => ⟨fun hlen => addHoldEnd_of_lt hreset hlen e, fun hlen => ?_⟩⟩
  · rw [exec_holdEnds hrun, answer_holdEnds hlen]
    rfl
  · rw [exec_holdEndsNormalEnd hrun hf hk, hsnap, holdEndsRemoval, noFrame_modifyPort]
  · rw [exec_holdEndsNormalEnd hrun hf hk, hsnap]
    rfl
  · rw [addHoldEnd_of_full hreset hlen]
    refine ⟨rfl, rfl, fun f count lost hf hsnap => ?_⟩
    rw [noteFrame_frame hf, hsnap]
    rfl

/-! ### NOTICES (R140) -/

theorem exec_notices (hrun : s.running p = true) : exec (.notices p) s =
    .next (s.answers p .notices (answer .notices .ok (noticesFields (s.port p).notices))
      (.notices (s.port p).notices .empty)) :=
  congrArg _ (frameOf_reading hrun (by simp only [noFrame_port_notices]))

/-- The two bytes of a word, most-significant byte first (R166). -/
theorem bytes2_toNat (x : BitVec 16) : bytes2 x.toNat = [x.extractLsb' 8 8, x.extractLsb' 0 8] := by
  have hhigh : byte (x.toNat / 256) = x.extractLsb' 8 8 := by
    rw [byte, BitVec.extractLsb', Nat.shiftRight_eq_div_pow]
  have hlow : byte (x.toNat % 256) = x.extractLsb' 0 8 := by
    apply BitVec.eq_of_toNat_eq
    simp [byte]
  rw [bytes2, hhigh, hlow]

theorem answer_notices (g : NoticeSets) : answer .notices .ok (noticesFields g) =
    [0x00, g.poll.extractLsb' 8 8, g.poll.extractLsb' 0 8, g.seg.setWidth 8, g.freed, g.lost] := by
  rw [noticesFields, bytes2_toNat]
  rfl

/-- Settles O21: what was added since the snapshot stands in the snapshot's second part and is not removed. -/
theorem noticesReportThenRemove : Obligations.NoticesReportThenRemove := by
  refine ⟨fun s p hrun => ?_, fun s p f a b hrun hf hk hsnap => ?_, fun s p f hrun hf hk hsnap => ?_,
    fun ps g hreset => ⟨addNotices_notices ps g hreset, fun f a b hf hsnap => ?_⟩,
    fun ps g hreset => addNotices_inReset_eq ps g hreset, fun s p hrun => exec_frameEndsEarly hrun⟩
  · rw [exec_notices hrun, answer_notices]
    rfl
  · rw [exec_noticesNormalEnd hrun hf hk, hsnap, noticesRemoval, noFrame_modifyPort]
    rfl
  · rw [exec_noticesNormalEnd hrun hf hk, hsnap]
    rfl
  · rw [addNotices_frame hreset, noteFrame_frame hf, hsnap]
    rfl

end Sys2Proof.Machine
end

section
/-! PROOF. The attention unit: framing errors, the causes and their mask, and ATTNxN (R141 to R144, R156 to R158). -/

namespace Sys2Proof.Machine

set_option Elab.async false

open State PortState

/-! ### The causes (R141) -/

/-- The flag of one cause in its place. -/
def causeBit (pending : Bool) (n : Nat) : BitVec 7 := if pending then BitVec.twoPow 7 n else 0

theorem getLsbD_causeBit (pending : Bool) {n : Nat} (hn : n < 7) (i : Nat) :
    (causeBit pending n).getLsbD i = (pending && decide (n = i)) := by
  cases pending with
  | false => simp [causeBit]
  | true => simp [causeBit, hn]

theorem PortState.pendingCauses_eq (ps : PortState) : ps.pendingCauses =
    causeBit (!ps.results.isEmpty) 0 ||| causeBit ps.postedFault.isSome 1 |||
      causeBit (!ps.holdEnds.isEmpty || ps.lostEnds != 0) 2 ||| causeBit (ps.notices.poll != 0) 3 |||
      causeBit (ps.notices.seg != 0) 4 ||| causeBit (ps.notices.freed != 0 || ps.notices.lost != 0) 5 |||
      causeBit ps.framingFlag 6 := rfl

/-- Each of the bits 0 to 6 is the flag of the cause that chapter 11 gives its number. -/
theorem PortState.getLsbD_pendingCauses (ps : PortState) (i : Nat) : ps.pendingCauses.getLsbD i =
    (!ps.results.isEmpty && decide (0 = i) || ps.postedFault.isSome && decide (1 = i) ||
      (!ps.holdEnds.isEmpty || ps.lostEnds != 0) && decide (2 = i) || ps.notices.poll != 0 && decide (3 = i) ||
      ps.notices.seg != 0 && decide (4 = i) || (ps.notices.freed != 0 || ps.notices.lost != 0) && decide (5 = i) ||
      ps.framingFlag && decide (6 = i)) := by
  simp only [pendingCauses_eq, BitVec.getLsbD_or, getLsbD_causeBit, Nat.reduceLT]

/-- Two sets of causes have a member in common when one bit is set in both. -/
theorem and_bne_zero_iff {w : Nat} (x y : BitVec w) :
    (x &&& y != 0) = true ↔ ∃ n, n < w ∧ x.getLsbD n = true ∧ y.getLsbD n = true := by
  rw [bne_iff_ne, ne_eq, BitVec.eq_of_getLsbD_eq_iff]
  simp

/-! ### ATTNxN (R144) -/

theorem State.attnLow_iff (s : State) (p : Port) : s.attnLow p = true ↔
    s.held = false ∧ (s.port p).inReset = false ∧
      ∃ n, n < 7 ∧ (s.port p).pendingCauses.getLsbD n = true ∧ (s.port p).mask.getLsbD n = true := by
  rw [attnLow, Bool.and_eq_true, running_iff, and_bne_zero_iff, and_assoc]

/-- Settles O23: each cause by its bit, ATTNxN by the causes and the mask in common. -/
theorem attentionFollowsTheCauses : Obligations.AttentionFollowsTheCauses := by
  refine ⟨fun ps => ?_, attnLow_iff⟩
  simp only [getLsbD_pendingCauses]
  simp [Option.isSome_iff_ne_none]

variable {s : State} {p : Port}

/-! ### Framing errors (R156, R157) -/

theorem takeFrame_running {k : Option FrameKind} {n : Nat} {act : State → Answer} (h : s.running p = true) :
    takeFrame p k n act s = (act (s.noFrame p)).state.modifyPort p fun ps =>
      { ps with frame := some ⟨k, n, (act (s.noFrame p)).reply, (act (s.noFrame p)).snapshot⟩ } :=
  if_pos h

theorem exec_framingError (hrun : s.running p = true) : exec (.framingError p) s =
    .next (s.modifyPort p fun ps => { ps with frame := none }.framingError) :=
  congrArg _ (if_pos hrun)

/-- An unknown kind counts as a framing error does and is answered besides. -/
theorem exec_badFrame (hrun : s.running p = true) (kind : Byte) : exec (.badFrame p kind) s =
    .next (s.modifyPort p fun ps => { ps.framingError with frame := some ⟨none, 1, [0x11], .none⟩ }) := by
  refine congrArg Host.Outcome.next ((takeFrame_running hrun).trans ?_)
  rw [noFrame_modifyPort, modifyPort_modifyPort]
  rfl

/-- Settles O10, by the event. -/
theorem framingErrorsAreCounted : Obligations.FramingErrorsAreCounted :=
  fun _ _ hrun => ⟨exec_framingError hrun, exec_badFrame hrun, exec_frameEndsEarly hrun⟩

/-! ### CAUSES and CAUSE MASK (R142, R143) -/

/-- A frame that updates its own port beside the frame in progress. -/
theorem frameOf_updating {k : FrameKind} {act : State → Answer} {g : PortState → PortState} {reply : List Byte}
    (hrun : s.running p = true) (hact : act (s.noFrame p) = ⟨(s.noFrame p).modifyPort p g, reply, .none⟩)
    (hg : ∀ ps, g { ps with frame := none } = { g ps with frame := none }) :
    frameOf p k act s = (s.modifyPort p g).answers p k reply := by
  have hcomm : (s.noFrame p).modifyPort p g = (s.modifyPort p g).noFrame p := by
    rw [noFrame_modifyPort, noFrame, modifyPort_modifyPort]
    exact congrArg _ (funext hg)
  rw [frameOf_running hrun, hact, hcomm, noFrame_answers]

/-- The reply of CAUSES for a port. -/
def causesReply (ps : PortState) : List Byte :=
  [0x00, ps.pendingCauses.setWidth 8, ps.mask.setWidth 8, byte ps.framingCount]

/-- What CAUSES reports does not rest on the frame in progress. -/
theorem answer_causes_noFrame (s : State) (p : Port) :
    answer .causes .ok [((s.noFrame p).port p).pendingCauses.setWidth 8, ((s.noFrame p).port p).mask.setWidth 8,
      byte ((s.noFrame p).port p).framingCount] = causesReply (s.port p) := by
  rw [noFrame_port_self]
  rfl

theorem exec_causes_report (hrun : s.running p = true) {b : Byte} (hb : b.getLsbD 0 = false) :
    exec (.causes p b) s = .next (s.answers p .causes (causesReply (s.port p))) := by
  refine congrArg _ (frameOf_reading hrun ?_)
  simp only [hb, answer_causes_noFrame, Bool.false_eq_true, if_false]

/-- The framing flag and count are cleared after they were reported. -/
theorem exec_causes_clear (hrun : s.running p = true) {b : Byte} (hb : b.getLsbD 0 = true) :
    exec (.causes p b) s =
      .next ((s.modifyPort p fun ps => { ps with framingFlag := false, framingCount := 0 }).answers p .causes
        (causesReply (s.port p))) := by
  refine congrArg _ (frameOf_updating hrun ?_ fun _ => rfl)
  simp only [hb, answer_causes_noFrame, if_true]

theorem exec_causeMask (hrun : s.running p = true) (b : Byte) : exec (.causeMask p b) s =
    .next ((s.modifyPort p fun ps => { ps with mask := b.setWidth 7 }).answers p .causeMask
      [0x00, (b.setWidth 7).setWidth 8]) :=
  congrArg _ (frameOf_updating hrun rfl fun _ => rfl)

/-- Bit 7 of the mask byte is not assigned and reads 0 (R142, R166). -/
theorem setWidth_seven_setWidth (b : Byte) : (b.setWidth 7).setWidth 8 = b &&& 0x7F := by
  have hlow : (b &&& 0x7F).toNat = b.toNat % 2 ^ 7 := Nat.and_two_pow_sub_one_eq_mod b.toNat 7
  apply BitVec.eq_of_toNat_eq
  rw [hlow, BitVec.toNat_setWidth, BitVec.toNat_setWidth]
  omega

/-- Settles O22, by the clear bit. -/
theorem causesAndMaskFrames : Obligations.CausesAndMaskFrames := by
  refine fun s p b hrun => ⟨exec_causes_report hrun, exec_causes_clear hrun, ?_⟩
  rw [exec_causeMask hrun, setWidth_seven_setWidth]

end Sys2Proof.Machine
end

section
/-! PROOF. The pins of the ports: a command that moves no reset pin changes no role and puts no port in or out of
IN_RESET; only the rise of RESETN changes a role (R159, R162). -/

namespace Sys2Proof.Machine

set_option Elab.async false

open State PortState

namespace State

variable {s t : State} {p : Port}

namespace SamePins

/-! ### Frames and events -/

theorem takeFrame {k : Option FrameKind} {n : Nat} {act : State → Answer}
    (hact : ∀ s, SamePins s (act s).state) : SamePins s (Machine.takeFrame p k n act s) := by
  unfold Machine.takeFrame
  split
  · exact ((noFrame_samePins s p).trans (hact _)).trans (modifyPort_samePins _ _ _ fun _ => ⟨rfl, rfl⟩)
  · exact .refl s

theorem frameOf {k : FrameKind} {act : State → Answer} (hact : ∀ s, SamePins s (act s).state) :
    SamePins s (Machine.frameOf p k act s) := takeFrame hact

theorem frameEnd {k : FrameKind} {act : Snapshot → State → State} (hact : ∀ x s, SamePins s (act x s)) :
    SamePins s (Machine.frameEnd p k act s) := by
  unfold Machine.frameEnd
  split
  · split
    · exact (noFrame_samePins s p).trans (hact _ _)
    · exact .refl s
  · exact .refl s

theorem hubEvent {act : State → State} (hact : SamePins s (act s)) : SamePins s (Machine.hubEvent act s) := by
  unfold Machine.hubEvent
  split
  · exact .refl s
  · exact hact

theorem withClaim {k : FrameKind} {act : Answer} (hact : SamePins s act.state) :
    SamePins s (Machine.withClaim p k s act).state := by
  unfold Machine.withClaim
  split
  · exact hact
  · exact .refl s

theorem withIndex {n : Nat} {b : Byte} {k : FrameKind} {act : Fin n → Answer}
    (hact : ∀ i, SamePins s (act i).state) : SamePins s (Machine.withIndex n b k s act).state := by
  unfold Machine.withIndex
  split
  · exact hact _
  · exact .refl s

theorem claimedFrame {n : Nat} {b : Byte} {k : FrameKind} {act : State → Fin n → Answer}
    (hact : ∀ s i, SamePins s (act s i).state) : SamePins s (Machine.claimedFrame p k b act s) :=
  frameOf fun s => withClaim (withIndex (hact s))

theorem next {u : State} (h : SamePins s u) (e : (.next u : Host.Outcome State Fault Refusal) = .next t) :
    SamePins s t := by
  cases e
  exact h

/-! ### Requests, holds and decisions -/

theorem addOpen (s : State) (p : Port) (r : Request) : SamePins s (s.addOpen p r) :=
  modifyPort_samePins _ _ _ fun _ => ⟨rfl, rfl⟩

theorem cancelReq (s : State) (p : Port) (tag : Byte) : SamePins s (s.cancelReq p tag).1 := by
  unfold State.cancelReq
  split
  · exact .refl s
  · split
    · exact completeReq_samePins ..
    · exact (dropWaiters_keeps ..).samePins.trans (completeReq_samePins ..)
    · exact .refl s

theorem settleHold (s : State) (p : Port) (r : Request) : SamePins s (s.settleHold p r) := by
  unfold State.settleHold
  dsimp only
  split
  · split
    · split
      · exact completeReq_samePins ..
      · exact (setHold_keeps ..).samePins.trans (modifyPort_samePins _ _ _ fun _ => ⟨rfl, rfl⟩)
    · exact .refl s
  · split
    · exact (setHold_keeps ..).samePins.trans (completeReq_samePins ..)
    · exact completeReq_samePins ..

theorem settleRelease (s : State) (p : Port) (r : Request) : SamePins s (s.settleRelease p r) := by
  unfold State.settleRelease
  split
  · split
    · exact (handOver_samePins ..).trans (completeReq_samePins ..)
    · exact completeReq_samePins ..
  · exact completeReq_samePins ..

theorem grant (s : State) (g : Seg) (c : Candidate) : SamePins s (s.grant g c) := by
  cases c with
  | request p r =>
    have hflight : SamePins s (s.modifyPort p (·.setReqState r.tag .inFlight)) :=
      modifyPort_samePins _ _ _ fun _ => ⟨rfl, rfl⟩
    exact hflight.trans (setEngine_keeps ..).samePins
  | poll n => exact (((setDue_keeps ..).samePins).trans (setPoll_keeps ..).samePins).trans (setEngine_keeps ..).samePins

theorem runDecision (g : Seg) (fuel : Nat) : ∀ s : State, SamePins s (State.runDecision g fuel s) := by
  induction fuel with
  | zero => exact .refl
  | succ fuel ih =>
    intro s
    unfold State.runDecision
    split
    · exact .refl s
    · split
      · exact .refl s
      · split
        · exact ((setArbiter_keeps ..).samePins.trans (completeReq_samePins ..)).trans (ih _)
        · exact (setArbiter_keeps ..).samePins.trans (grant ..)
      · exact (setArbiter_keeps ..).samePins.trans (grant ..)

/-! ### Polls and routes -/

theorem becomeDue (s : State) (n : PollIdx) : SamePins s (s.becomeDue n) := by
  unfold State.becomeDue
  dsimp only
  split
  · exact (setPoll_keeps ..).samePins
  · split
    · exact (setPoll_keeps ..).samePins.trans (completePoll_samePins ..)
    · exact (setPoll_keeps ..).samePins.trans (setDue_keeps ..).samePins

theorem countdown (s : State) (n : PollIdx) : SamePins s (s.countdown n) := by
  unfold State.countdown
  dsimp only
  split
  · split
    · exact (setPoll_keeps ..).samePins
    · exact becomeDue s n
  · exact .refl s

theorem undue_setPoll (s : State) (n : PollIdx) (x : PollEntry) : SamePins s ((s.undue n).setPoll n x) :=
  (undue_keeps ..).samePins.trans (setPoll_keeps ..).samePins

theorem pollSet (s : State) (n : PollIdx) (f : PollFields) : SamePins s (s.pollSet n f).state := by
  unfold State.pollSet
  split
  · exact .refl s
  · split
    · exact undue_setPoll ..
    · exact .refl s

theorem pollStart (s : State) (n : PollIdx) : SamePins s (s.pollStart n).state := by
  unfold State.pollStart
  dsimp only
  split
  · dsimp only
    split
    · exact .refl s
    · exact (setPoll_keeps ..).samePins
  · exact .refl s

theorem sweep (s : State) (i : RouteIdx) : SamePins s (s.sweep i) :=
  ⟨fun p => by rw [sweep_port]; exact ⟨completeAll_role .., completeAll_inReset ..⟩⟩

theorem routeSet (s : State) (i : RouteIdx) (f : RouteFields) : SamePins s (s.routeSet i f).state := by
  have hset (e : RouteEntry) : SamePins s (s.setRoute i e) := (setRoute_keeps ..).samePins
  unfold State.routeSet
  split
  · exact .refl s
  · split
    · exact .refl s
    · split
      · exact (hset _).trans (sweep _ i)
      · exact hset _

theorem routeClear (s : State) (i : RouteIdx) : SamePins s (s.routeClear i).state := by
  unfold State.routeClear
  split
  · exact (setRoute_keeps ..).samePins.trans (sweep _ i)
  · exact .refl s

/-! ### Semaphores and segments -/

theorem semGive (s : State) (p : Port) (i : SemIdx) : SamePins s (s.semGive p i).1 := by
  unfold State.semGive
  split
  · exact freeSem_samePins ..
  · exact .refl s

theorem semBreak (s : State) (i : SemIdx) : SamePins s (s.semBreak i).1 := by
  unfold State.semBreak
  split
  · exact (freeSem_samePins ..).trans (modifyPort_samePins _ _ _ fun _ => ⟨addNotices_role .., addNotices_inReset ..⟩)
  · exact .refl s

theorem segmentSet (s : State) (g : Seg) (f : SegmentFields) : SamePins s (s.segmentSet g f).state := by
  unfold State.segmentSet
  split
  · exact .refl s
  · exact (setEngine_keeps ..).samePins.trans (setArbiter_keeps ..).samePins

theorem segmentDisable (s : State) (g : Seg) : SamePins s (s.segmentDisable g).state := by
  unfold State.segmentDisable
  split
  · exact .refl s
  iterate 4
    · exact enterDisabled_samePins ..
  iterate 3
    · exact (setEngine_keeps ..).samePins

theorem segmentRestore (s : State) (g : Seg) : SamePins s (s.segmentRestore g).state := by
  unfold State.segmentRestore
  split
  · exact (setEngine_keeps ..).samePins.trans (segmentNotice_samePins ..)
  · exact .refl s

/-! ### The ends of transactions -/

theorem endTransaction (s : State) (g : Seg) (x : Transaction) (e : Ending) : SamePins s (s.endTransaction g x e) :=
  (((count_keeps ..).samePins.trans (setEngine_keeps ..).samePins).trans (handOutcome_samePins ..)).trans
    (leaveTo_samePins ..)

theorem conflict (s : State) (g : Seg) (x : Transaction) (acks : List Bool) : SamePins s (s.conflict g x acks) :=
  ((count_keeps ..).samePins.trans (handOutcome_samePins ..)).trans (leaveTo_samePins ..)

theorem expireLimit (s : State) (g : Seg) (x : Transaction) (acks : List Bool) :
    SamePins s (s.expireLimit g x acks) := by
  have hcounted (f : Stats → Stats) (e : Ending) : SamePins s ((s.count g f).handOutcome g x.carrier e) :=
    (count_keeps ..).samePins.trans (handOutcome_samePins ..)
  unfold State.expireLimit
  dsimp only
  split
  · exact (hcounted ..).trans (enterDisabled_samePins ..)
  · exact (hcounted ..).trans (tryRecovery_samePins ..)

theorem afterPulse (s : State) (g : Seg) (n : Nat) (hub sda : Bool) : SamePins s (s.afterPulse g n hub sda) := by
  unfold State.afterPulse
  split
  · exact (enterChecking_keeps ..).samePins
  · split
    · exact (setEngineState_keeps ..).samePins
    · split
      · exact (setEngineState_keeps ..).samePins
      · exact enterFaulted_samePins ..

/-! ### The removals at the normal ends (R133) and the HUB RESET (R164) -/

theorem fetchRemoval (p : Port) (x : Snapshot) (s : State) : SamePins s (Machine.fetchRemoval p x s) := by
  unfold Machine.fetchRemoval
  split
  · refine modifyPort_samePins _ _ _ fun ps => ?_
    split <;> exact ⟨rfl, rfl⟩
  · exact .refl s

theorem postedFaultRemoval (p : Port) (x : Snapshot) (s : State) : SamePins s (Machine.postedFaultRemoval p x s) := by
  unfold Machine.postedFaultRemoval
  split
  · exact modifyPort_samePins _ _ _ fun _ => ⟨rfl, rfl⟩
  · exact .refl s

theorem holdEndsRemoval (p : Port) (x : Snapshot) (s : State) : SamePins s (Machine.holdEndsRemoval p x s) := by
  unfold Machine.holdEndsRemoval
  split
  · exact modifyPort_samePins _ _ _ fun _ => ⟨rfl, rfl⟩
  · exact .refl s

theorem noticesRemoval (p : Port) (x : Snapshot) (s : State) : SamePins s (Machine.noticesRemoval p x s) := by
  unfold Machine.noticesRemoval
  split
  · exact modifyPort_samePins _ _ _ fun _ => ⟨rfl, rfl⟩
  · exact .refl s

theorem hubReset (s : State) : SamePins s s.hubReset := by
  have hcleared : SamePins s s.hubCleared :=
    ⟨(mapPorts_samePins s (fun _ ps => ps.hubReset) fun _ _ => ⟨rfl, rfl⟩).same⟩
  refine hcleared.trans (.foldl (fun t g => ?_) _ _)
  split
  · exact segmentNotice_samePins ..
  · exact .refl t

end SamePins

/-! ### Every command -/

/-- A command that moves no reset pin changes no role and puts no port in or out of IN_RESET. -/
theorem exec_samePins {c : Instr} (hc : c.movesPin = false) (e : exec c s = .next t) : SamePins s t := by
  cases c with
  | prstxnFall | prstxnRise | resetnFall | resetnRise => cases hc
  | lineLowInIdle | freeWindowComplete | freeWindowRestart | recoverySclHigh | ageIncrease =>
    have hkeeps := exec_keeps e
    dsimp only [changes] at hkeeps
    exact hkeeps.samePins
  | submit p f =>
    refine (SamePins.takeFrame fun s => ?_).next e
    split
    · exact .addOpen s p _
    · exact .refl s
  | badFrame p kind =>
    refine (SamePins.takeFrame fun s => ?_).next e
    dsimp only
    exact modifyPort_samePins _ _ _ fun _ => ⟨rfl, rfl⟩
  | framingError p | frameEndsEarly p =>
    refine SamePins.next ?_ e
    split
    · exact modifyPort_samePins _ _ _ fun _ => ⟨rfl, rfl⟩
    · exact .refl s
  | cancel p tag => exact (SamePins.frameOf fun s => .cancelReq s p tag).next e
  | laneInspect | hubInfo | portReset | holdEnds | notices => exact (SamePins.frameOf .refl).next e
  | fetch | postedFault =>
    refine (SamePins.frameOf fun s => ?_).next e
    split <;> exact .refl s
  | causes p clear =>
    refine (SamePins.frameOf fun s => ?_).next e
    dsimp only
    split
    · exact modifyPort_samePins _ _ _ fun _ => ⟨rfl, rfl⟩
    · exact .refl s
  | causeMask p mask =>
    refine (SamePins.frameOf fun s => ?_).next e
    dsimp only
    exact modifyPort_samePins _ _ _ fun _ => ⟨rfl, rfl⟩
  | fetchNormalEnd p => exact (SamePins.frameEnd (.fetchRemoval p)).next e
  | postedFaultNormalEnd p => exact (SamePins.frameEnd (.postedFaultRemoval p)).next e
  | holdEndsNormalEnd p => exact (SamePins.frameEnd (.holdEndsRemoval p)).next e
  | noticesNormalEnd p => exact (SamePins.frameEnd (.noticesRemoval p)).next e
  | portResetNormalEnd p => exact (SamePins.frameEnd fun _ s => resetPort_samePins s p).next e
  | hubReset p =>
    refine (SamePins.frameOf fun s => ?_).next e
    split
    · exact .refl s
    · exact .withClaim (.refl s)
  | hubResetNormalEnd p =>
    refine (SamePins.frameEnd fun x s => ?_).next e
    split
    · exact .hubReset s
    · exact .refl s
  | semTake p n =>
    refine (SamePins.frameOf fun s => ?_).next e
    split
    · exact .refl s
    · exact (semTake_keeps ..).samePins
  | semGive p n =>
    refine (SamePins.frameOf fun s => ?_).next e
    split
    · exact .refl s
    · exact .semGive s p _
  | semBreak p n =>
    refine (SamePins.frameOf fun s => ?_).next e
    split
    · exact .refl s
    · split
      · exact .refl s
      · exact .semBreak s _
  | routeSet p f => exact (SamePins.claimedFrame fun s i => .routeSet s i f).next e
  | routeClear p index => exact (SamePins.claimedFrame .routeClear).next e
  | routeGet | pollGet | pollRead => exact (SamePins.frameOf fun s => .withIndex fun _ => .refl s).next e
  | pollSet p f => exact (SamePins.claimedFrame fun s n => .pollSet s n f).next e
  | pollStart p index => exact (SamePins.claimedFrame .pollStart).next e
  | pollStop p index => exact (SamePins.claimedFrame fun s n => .undue_setPoll s n _).next e
  | segmentSet p f => exact (SamePins.claimedFrame fun s g => .segmentSet s g f).next e
  | segmentGet p g => exact (SamePins.frameOf fun _ => .withIndex fun _ => (look_keeps ..).samePins).next e
  | segmentDisable p g => exact (SamePins.claimedFrame .segmentDisable).next e
  | segmentRestore p g => exact (SamePins.claimedFrame .segmentRestore).next e
  | statsClear p g => exact (SamePins.claimedFrame fun _ _ => (setEngine_keeps ..).samePins).next e
  | arbiterDecision g =>
    refine (SamePins.hubEvent ?_).next e
    split
    · exact .runDecision g _ s
    · exact .refl s
  | holdSettlement p g =>
    refine (SamePins.hubEvent ?_).next e
    split
    · exact .settleHold s p _
    · exact .refl s
  | releaseSettlement p g =>
    refine (SamePins.hubEvent ?_).next e
    split
    · exact .settleRelease s p _
    · exact .refl s
  | holdDecrease i => exact (SamePins.hubEvent (decreaseHold_samePins s i)).next e
  | holdExpiry i =>
    refine (SamePins.hubEvent ?_).next e
    split
    · split
      · exact expire_samePins s i
      · exact .refl s
    · exact .refl s
  | transactionEnd g acks data =>
    refine (SamePins.hubEvent ?_).next e
    split
    · split
      · exact .refl s
      · exact .endTransaction s g _ _
    · exact .refl s
  | lineConflict g acks =>
    refine (SamePins.hubEvent ?_).next e
    split
    · exact .conflict s g _ acks
    · exact .refl s
  | timeout g acks =>
    refine (SamePins.hubEvent ?_).next e
    split
    · exact .expireLimit s g _ acks
    · exact .refl s
  | cutEnd g =>
    refine (SamePins.hubEvent ?_).next e
    split
    · split
      · exact leaveTo_samePins s g _
      all_goals exact .refl s
    · exact .refl s
  | limitWindowEnd g =>
    refine (SamePins.hubEvent ?_).next e
    split
    · exact tryRecovery_samePins s g
    · exact .refl s
  | recoverySclTimeout g =>
    refine (SamePins.hubEvent ?_).next e
    split
    · split
      · exact enterDisabled_samePins s g
      · exact enterFaulted_samePins s g _
    · exact .refl s
  | recoveryPulseEnd g sda =>
    refine (SamePins.hubEvent ?_).next e
    split
    · split
      · exact enterDisabled_samePins s g
      · exact .afterPulse s g _ _ sda
    · exact .refl s
  | recoveryStopEnd g =>
    refine (SamePins.hubEvent ?_).next e
    split
    · exact leaveTo_samePins s g _
    · exact .refl s
  | pollCountdown n => exact (SamePins.hubEvent (.countdown s n)).next e
  | pollDue n =>
    refine (SamePins.hubEvent ?_).next e
    split
    · exact .becomeDue s n
    · exact .refl s

theorem setPrst_role (s : State) (p : Port) (low : Bool) (q : Port) :
    ((s.setPrst p low).port q).role = (s.port q).role := by
  rw [setPrst, modifyPort_port]
  split <;> rfl

/-- Only the rise of RESETN samples the roles (R162). -/
theorem exec_role {c : Instr} (hc : ∀ role0 role1 role2, c ≠ .resetnRise role0 role1 role2) (e : exec c s = .next t)
    (q : Port) : (t.port q).role = (s.port q).role := by
  cases hpin : c.movesPin with
  | false => exact ((exec_samePins hpin e).same q).1
  | true =>
    cases c with
    | prstxnFall p =>
      obtain rfl := Host.Outcome.next.inj e
      split
      · rw [setPrst_role]
        exact ((resetPort_samePins s p).same q).1
      · exact setPrst_role ..
    | prstxnRise p =>
      obtain rfl := Host.Outcome.next.inj e
      split
      · exact setPrst_role ..
      · rfl
    | resetnFall =>
      obtain ⟨u, hu, -, -, hports⟩ := exec_resetnFall_keeps s
      obtain rfl := Host.Outcome.next.inj (hu.symm.trans e)
      rw [hports]
    | resetnRise role0 role1 role2 => exact absurd rfl (hc role0 role1 role2)
    | _ => cases hpin

end State

end Sys2Proof.Machine
end

section
/-! PROOF. The semaphore frames: SEM TAKE, SEM GIVE and SEM BREAK by number, role and ownership (R147, R148, R149). -/

namespace Sys2Proof.Machine

set_option Elab.async false

open State

variable {s : State} {p : Port} {k : FrameKind} {b : Byte} {act : State → SemIdx → State × ReplyStatus}

/-! ### Frames that name a semaphore -/

/-- A block acts on the state without the port's frame in progress, and on no other. -/
theorem frameOf_congr {act act' : State → Answer} (h : act (s.noFrame p) = act' (s.noFrame p)) :
    frameOf p k act s = frameOf p k act' s := by
  cases hrun : s.running p with
  | false => rw [frameOf_not_running hrun, frameOf_not_running hrun]
  | true => rw [frameOf_running hrun, frameOf_running hrun, h]

/-- A frame that names a semaphore: the reply has the status, the number as received and the owner after the event. -/
def semFrame (p : Port) (k : FrameKind) (b : Byte) (act : State → SemIdx → State × ReplyStatus) (s : State) : State :=
  frameOf p k (fun s =>
    match readIdx 8 b with
    | none => ⟨s, semAnswer k .badIndex b none, .none⟩
    | some i => ⟨(act s i).1, semAnswer k (act s i).2 b ((act s i).1.sem i).owner, .none⟩) s

theorem exec_semTake (s : State) (p : Port) (b : Byte) :
    exec (.semTake p b) s = .next (semFrame p .semTake b (fun s i => s.semTake p i) s) := rfl

theorem exec_semGive (s : State) (p : Port) (b : Byte) :
    exec (.semGive p b) s = .next (semFrame p .semGive b (fun s i => s.semGive p i) s) := rfl

theorem semFrame_of_le (hrun : s.running p = true) (hb : 8 ≤ b.toNat) :
    semFrame p k b act s = s.answers p k (semAnswer k .badIndex b none) :=
  frameOf_reading hrun (by rw [readIdx_of_le hb])

theorem semFrame_of_lt (hrun : s.running p = true) (i : SemIdx) (hb : b.toNat = i.val) {u : State} {st : ReplyStatus}
    (hact : act (s.noFrame p) i = (u, st)) :
    semFrame p k b act s = u.answers p k (semAnswer k st b (u.sem i).owner) := by
  rw [semFrame, frameOf_running hrun, readIdx_of_lt i hb]
  simp only [hact]

/-- Where the block changes nothing, the frame changes nothing but the reply. -/
theorem semFrame_refused (hrun : s.running p = true) (i : SemIdx) (hb : b.toNat = i.val) {st : ReplyStatus}
    (hact : act (s.noFrame p) i = (s.noFrame p, st)) :
    semFrame p k b act s = s.answers p k (semAnswer k st b (s.sem i).owner) := by
  rw [semFrame_of_lt hrun i hb hact, noFrame_answers, noFrame_sem]

/-- Where the block writes the semaphore, that and the reply are all that the frame changes. -/
theorem semFrame_writes (hrun : s.running p = true) (i : SemIdx) (hb : b.toNat = i.val) {x : Semaphore}
    {st : ReplyStatus} (hact : act (s.noFrame p) i = ((s.noFrame p).setSem i x, st)) :
    semFrame p k b act s = (s.setSem i x).answers p k (semAnswer k st b x.owner) := by
  rw [semFrame_of_lt hrun i hb hact, noFrame_setSem, noFrame_answers, noFrame_sem, setSem_sem_self]

/-- A MEMBER is refused SEM BREAK for every number (R149). -/
theorem exec_semBreak_member (hrun : s.running p = true) (hrole : (s.port p).role = .member) :
    exec (.semBreak p b) s = .next (s.answers p .semBreak
      (semAnswer .semBreak .notSupervisor b ((readIdx 8 b).bind fun i => (s.sem i).owner))) :=
  congrArg _ (frameOf_reading hrun (if_pos ((noFrame_port_role ..).trans hrole)))

/-- A SUPERVISOR's SEM BREAK is looked at by its number (R149). -/
theorem exec_semBreak_supervisor (hrole : (s.port p).role = .supervisor) :
    exec (.semBreak p b) s = .next (semFrame p .semBreak b State.semBreak s) := by
  have hnot : ((s.noFrame p).port p).role ≠ .member := by simp [hrole]
  exact congrArg _ (frameOf_congr (if_neg hnot))

namespace State

variable {i : SemIdx} {q : Port}

/-! ### SEM TAKE on a semaphore (R147) -/

theorem semTake_member (hi : i = 0) (hrole : (s.port p).role = .member) : s.semTake p i = (s, .notSupervisor) :=
  if_pos ⟨hi, hrole⟩

/-- The role test shuts a MEMBER out of semaphore 0 alone. -/
theorem semTake_allowed (h : i ≠ 0 ∨ (s.port p).role = .supervisor) : ¬(i = 0 ∧ (s.port p).role = .member) := by
  rintro ⟨hi, hrole⟩
  rcases h with h | h
  · exact h hi
  · rw [hrole] at h
    cases h

theorem semTake_free (h : i ≠ 0 ∨ (s.port p).role = .supervisor) (ho : (s.sem i).owner = none) :
    s.semTake p i = (s.setSem i { s.sem i with owner := some p }, .got) := by
  rw [semTake, if_neg (semTake_allowed h), ho]

theorem semTake_own (h : i ≠ 0 ∨ (s.port p).role = .supervisor) (ho : (s.sem i).owner = some p) :
    s.semTake p i = (s, .alreadyOwned) := by
  rw [semTake, if_neg (semTake_allowed h), ho]
  exact if_pos rfl

theorem semTake_busy (h : i ≠ 0 ∨ (s.port p).role = .supervisor) (ho : (s.sem i).owner = some q) (hq : q ≠ p) :
    s.semTake p i =
      (s.setSem i { s.sem i with interest := (s.sem i).interest ||| BitVec.twoPow 3 p.val }, .semBusy) := by
  rw [semTake, if_neg (semTake_allowed h), ho]
  exact if_neg hq

/-! ### SEM GIVE and SEM BREAK on a semaphore (R148, R149) -/

theorem semGive_owned (ho : (s.sem i).owner = some p) : s.semGive p i = (s.freeSem i, .freed) := if_pos ho

theorem semGive_not_owned (ho : (s.sem i).owner ≠ some p) : s.semGive p i = (s, .notOwner) := if_neg ho

theorem semBreak_owned (ho : (s.sem i).owner = some q) :
    s.semBreak i = ((s.freeSem i).modifyPort q (·.addNotices (.ofLost i)), .freed) := by
  rw [semBreak, ho]

theorem semBreak_free (ho : (s.sem i).owner = none) : s.semBreak i = (s, .ok) := by
  rw [semBreak, ho]

theorem freeSem_sem_self (s : State) (i : SemIdx) : (s.freeSem i).sem i = .free := by
  rw [freeSem_sem, if_pos rfl]

end State

/-- Settles O24, by the number, then the role, then the ownership. -/
theorem semTakeByOwnership : Obligations.SemTakeByOwnership := by
  refine fun s p b hrun => ⟨fun hb => ?_, fun i hb => ⟨fun hi hrole => ?_, fun hallowed =>
    ⟨fun ho => ?_, fun ho => ?_, fun q ho hq => ?_⟩⟩⟩
  · rw [exec_semTake, semFrame_of_le hrun hb]
    rfl
  · rw [exec_semTake, semFrame_refused hrun i hb (semTake_member hi ((noFrame_port_role ..).trans hrole))]
    rfl
  all_goals
    have hnoFrame : i ≠ 0 ∨ ((s.noFrame p).port p).role = .supervisor := by rwa [noFrame_port_role]
  · rw [exec_semTake, semFrame_writes hrun i hb (semTake_free hnoFrame ho)]
    rfl
  · rw [exec_semTake, semFrame_refused hrun i hb (semTake_own hnoFrame ho), ho]
    rfl
  · rw [exec_semTake, semFrame_writes hrun i hb (semTake_busy hnoFrame ho hq), noFrame_sem, ho]
    rfl

/-- Settles O25: SEM GIVE by the ownership, SEM BREAK by the role and then by the ownership. -/
theorem semGiveAndBreakFree : Obligations.SemGiveAndBreakFree := by
  refine ⟨fun s p b hrun => ⟨fun hb => ?_, fun i hb => ⟨fun ho => ?_, fun ho => ?_⟩⟩, fun s p b hrun =>
    ⟨fun hrole => ⟨fun hb => ?_, fun i hb => ?_⟩, fun hrole => ⟨fun hb => ?_, fun i hb =>
      ⟨fun ho => ?_, fun q ho => ?_⟩⟩⟩⟩
  · rw [exec_semGive, semFrame_of_le hrun hb]
    rfl
  · rw [exec_semGive, semFrame_refused hrun i hb (semGive_not_owned (s := s.noFrame p) ho)]
    rfl
  · rw [exec_semGive, semFrame_of_lt hrun i hb (semGive_owned (s := s.noFrame p) ho), freeSem_sem_self]
    rfl
  · rw [exec_semBreak_member hrun hrole, readIdx_of_le hb]
    rfl
  · rw [exec_semBreak_member hrun hrole, readIdx_of_lt i hb]
    rfl
  · rw [exec_semBreak_supervisor hrole, semFrame_of_le hrun hb]
    rfl
  · rw [exec_semBreak_supervisor hrole, semFrame_refused hrun i hb (semBreak_free (s := s.noFrame p) ho), ho]
    rfl
  · rw [exec_semBreak_supervisor hrole, semFrame_of_lt hrun i hb (semBreak_owned (s := s.noFrame p) ho),
      modifyPort_sem, freeSem_sem_self]
    rfl

end Sys2Proof.Machine
end

section
/-! PROOF. The owners and the interest sets of the semaphores under each command and each step (R146). -/

namespace Sys2Proof.Machine

set_option Elab.async false

open State

namespace State

variable {s t : State} {p : Port} {n i : SemIdx} {x : Semaphore}

/-! ### One semaphore -/

/-- What R146 asks of semaphore `n` with the value `x`, by the roles of `s`. -/
structure SemSound (s : State) (n : SemIdx) (x : Semaphore) : Prop where
  claim : n = 0 → ∀ p, x.owner = some p → (s.port p).role = .supervisor
  free : x.owner = none → x.interest = 0
  apart : ∀ p, x.owner = some p → x.interest.getLsbD p.val = false

theorem semaphoresSound_iff : SemaphoresSound s ↔ ∀ n, SemSound s n (s.sem n) := by
  constructor
  · rintro ⟨hclaim, hrest⟩ n
    obtain ⟨hfree, hapart⟩ := hrest n
    exact ⟨fun hn => hn ▸ hclaim, hfree, hapart⟩
  · exact fun h => ⟨(h 0).claim rfl, fun n => ⟨(h n).free, (h n).apart⟩⟩

namespace SemSound

theorem congr_roles (h : SemSound s n x) (hroles : ∀ p, (t.port p).role = (s.port p).role) : SemSound t n x :=
  ⟨fun hn p ho => (hroles p).trans (h.claim hn p ho), h.free, h.apart⟩

theorem freed (s : State) (n : SemIdx) : SemSound s n .free where
  claim _ _ ho := by cases ho
  free _ := rfl
  apart _ ho := by cases ho

/-- The port that takes a free semaphore is in no interest set, since that is empty. -/
theorem taken (h : SemSound s n x) (ho : x.owner = none) (hrole : n = 0 → (s.port p).role = .supervisor) :
    SemSound s n { x with owner := some p } where
  claim hn _ ho' := Option.some.inj ho' ▸ hrole hn
  free ho' := by cases ho'
  apart q _ := by simp [h.free ho]

/-- Another port than the owner joins the interest set. -/
theorem interested {q : Port} (h : SemSound s n x) (ho : x.owner = some q) (hq : q ≠ p) :
    SemSound s n { x with interest := x.interest ||| BitVec.twoPow 3 p.val } where
  claim := h.claim
  free ho' := absurd (ho.symm.trans ho') (Option.some_ne_none q)
  apart r hr := by
    obtain rfl : q = r := Option.some.inj (ho.symm.trans hr)
    have hval : p.val ≠ q.val := fun e => hq (Fin.ext e.symm)
    simp [-BitVec.getLsbD_eq_getElem, h.apart q hr, hval]

/-- A port leaves the interest set (R152). -/
theorem withdrawn (h : SemSound s n x) (p : Port) :
    SemSound s n { x with interest := x.interest &&& ~~~(BitVec.twoPow 3 p.val) } where
  claim := h.claim
  free ho := by simp [h.free ho]
  apart q ho := by
    rw [BitVec.getLsbD_and, h.apart q ho, Bool.false_and]

end SemSound

/-! ### All semaphores -/

namespace SemaphoresSound

/-- Each semaphore is sound by the roles before, which stay. -/
theorem of_sems (hroles : ∀ p, (t.port p).role = (s.port p).role) (hsems : ∀ n, SemSound s n (t.sem n)) :
    SemaphoresSound t :=
  semaphoresSound_iff.mpr fun n => (hsems n).congr_roles hroles

theorem sem (h : SemaphoresSound s) (n : SemIdx) : SemSound s n (s.sem n) := semaphoresSound_iff.mp h n

theorem congr (h : SemaphoresSound s) (hroles : ∀ p, (t.port p).role = (s.port p).role)
    (hsems : ∀ n, t.sem n = s.sem n) : SemaphoresSound t :=
  of_sems hroles fun n => hsems n ▸ h.sem n

theorem setSem (h : SemaphoresSound s) (hx : SemSound s i x) : SemaphoresSound (s.setSem i x) := by
  refine of_sems (s := s) (fun _ => rfl) fun n => ?_
  rw [setSem_sem]
  split
  · next e => exact e ▸ hx
  · exact h.sem n

theorem semTake (h : SemaphoresSound s) (p : Port) (i : SemIdx) : SemaphoresSound (s.semTake p i).1 := by
  unfold State.semTake
  split
  · exact h
  · next hallowed =>
    split
    · next ho =>
      refine h.setSem ((h.sem i).taken ho fun hi => ?_)
      cases hrole : (s.port p).role with
      | member => exact absurd ⟨hi, hrole⟩ hallowed
      | supervisor => rfl
    · next ho =>
      split
      · exact h
      · next hq => exact h.setSem ((h.sem i).interested ho hq)

theorem freeSem (h : SemaphoresSound s) (i : SemIdx) : SemaphoresSound (s.freeSem i) := by
  refine of_sems (fun p => ((freeSem_samePins s i).same p).1) fun n => ?_
  rw [freeSem_sem]
  split
  · exact .freed s n
  · exact h.sem n

theorem semGive (h : SemaphoresSound s) (p : Port) (i : SemIdx) : SemaphoresSound (s.semGive p i).1 := by
  unfold State.semGive
  split
  · exact h.freeSem i
  · exact h

theorem semBreak (h : SemaphoresSound s) (i : SemIdx) : SemaphoresSound (s.semBreak i).1 := by
  cases ho : (s.sem i).owner with
  | none => rwa [semBreak_free ho]
  | some q =>
    have hpins := SamePins.semBreak s i
    rw [semBreak_owned ho] at hpins ⊢
    refine of_sems (fun p => (hpins.same p).1) fun n => ?_
    rw [modifyPort_sem, freeSem_sem]
    split
    · exact .freed s n
    · exact h.sem n

/-- A port reset takes the port out of every interest set and frees what it owns (R152). -/
theorem resetPort (h : SemaphoresSound s) (p : Port) : SemaphoresSound (s.resetPort p) := by
  refine of_sems (fun q => ((resetPort_samePins s p).same q).1) fun n => ?_
  rw [resetPort_sem]
  split
  · exact .freed s n
  · exact (h.sem n).withdrawn p

theorem hubReset (s : State) : SemaphoresSound s.hubReset := by
  refine of_sems (fun p => ((SamePins.hubReset s).same p).1) fun n => ?_
  rw [(hubReset_effects s).sems]
  exact .freed s n

/-! ### Frames -/

theorem noFrame (h : SemaphoresSound s) (p : Port) : SemaphoresSound (s.noFrame p) :=
  h.congr (noFrame_port_role s p) fun _ => rfl

theorem frameOf (h : SemaphoresSound s) {k : FrameKind} {act : State → Answer}
    (hact : ∀ s, SemaphoresSound s → SemaphoresSound (act s).state) : SemaphoresSound (Machine.frameOf p k act s) := by
  cases hrun : s.running p with
  | false => rwa [frameOf_not_running hrun]
  | true =>
    rw [frameOf_running hrun]
    exact (hact _ (h.noFrame p)).congr (fun q => ((answers_samePins ..).same q).1) fun _ => rfl

theorem semFrame (h : SemaphoresSound s) {k : FrameKind} {b : Byte} {act : State → SemIdx → State × ReplyStatus}
    (hact : ∀ s i, SemaphoresSound s → SemaphoresSound (act s i).1) :
    SemaphoresSound (Machine.semFrame p k b act s) :=
  h.frameOf fun s h => by
    split
    · exact h
    · exact hact s _ h

theorem frameEnd (h : SemaphoresSound s) {k : FrameKind} {act : Snapshot → State → State}
    (hact : ∀ x s, SemaphoresSound s → SemaphoresSound (act x s)) : SemaphoresSound (Machine.frameEnd p k act s) := by
  unfold Machine.frameEnd
  split
  · split
    · exact hact _ _ (h.noFrame p)
    · exact h
  · exact h

theorem next (h : SemaphoresSound s) (e : (.next s : Host.Outcome State Fault Refusal) = .next t) :
    SemaphoresSound t := by
  cases e
  exact h

theorem setPrst (h : SemaphoresSound s) (p : Port) (low : Bool) : SemaphoresSound (s.setPrst p low) :=
  h.congr (setPrst_role s p low) fun n => modifyPort_sem s p _ n

/-! ### Every command -/

/-- The semaphore frames and the resets keep the semaphores sound; every other command leaves them, and the roles. -/
theorem exec (h : SemaphoresSound s) {c : Instr} (e : Machine.exec c s = .next t) : SemaphoresSound t := by
  cases c with
  | semTake p b =>
    rw [exec_semTake] at e
    exact (h.semFrame fun _ i h => h.semTake p i).next e
  | semGive p b =>
    rw [exec_semGive] at e
    exact (h.semFrame fun _ i h => h.semGive p i).next e
  | semBreak p b =>
    refine (h.frameOf fun s h => ?_).next e
    split
    · exact h
    · split
      · exact h
      · exact h.semBreak _
  | portResetNormalEnd p => exact (h.frameEnd fun _ _ h => h.resetPort p).next e
  | hubResetNormalEnd p =>
    refine (h.frameEnd fun x s h => ?_).next e
    split
    · exact .hubReset s
    · exact h
  | prstxnFall p =>
    refine SemaphoresSound.next ?_ e
    split
    · exact (h.resetPort p).setPrst p true
    · exact h.setPrst p true
  | resetnRise role0 role1 role2 =>
    obtain ⟨u, hu, hvalues⟩ := exec_resetnRise_values s #v[role0, role1, role2]
    exact hvalues.semaphoresSound.next (hu.symm.trans e)
  | _ =>
    have hkeeps := exec_keeps e
    dsimp only [changes] at hkeeps
    exact h.congr (exec_role (fun _ _ _ => by nofun) e) fun n => hkeeps.sem n

end SemaphoresSound

/-- The hub's own agents leave the semaphores (log 1). -/
theorem idle_sem (s : State) (n : SemIdx) : s.idle.sem n = s.sem n := by
  unfold idle
  split
  · rfl
  · split <;> rfl

end State

/-- Settles O52: a semaphore passes only to a port that no interest set names and, for semaphore 0, to a SUPERVISOR; no
owner joins its own interest set, and a semaphore is freed together with its interest set. -/
theorem stepKeepsSemaphoresSound : Obligations.StepKeepsSemaphoresSound := by
  intro s t h e
  unfold step at e
  split at e
  · exact (h.congr (fun p => by rw [idle_port]) (idle_sem s)).next e
  · next rest _ => exact SemaphoresSound.exec (s := { s with pending := rest }) h e

end Sys2Proof.Machine
end

section
/-! PROOF. A port that is IN_RESET and has nothing anywhere is given nothing by any operation of the hub (R139, R145,
R159). -/

namespace Sys2Proof.Machine

set_option Elab.async false

open State PortState

/-! ### The stores of one port -/

/-- A port that is IN_RESET, with no frame in progress and nothing in its stores (R49, R145, R159). -/
structure PortState.Vacant (ps : PortState) : Prop where
  inReset : ps.inReset = true
  frame : ps.frame = none
  reqs : ps.reqs = []
  results : ps.results = []
  postedFault : ps.postedFault = none
  holdEnds : ps.holdEnds = []
  lostEnds : ps.lostEnds = 0
  notices : ps.notices = ⟨0, 0, 0, 0⟩

namespace PortState.Vacant

variable {ps : PortState}

theorem addNotices (h : ps.Vacant) (g : NoticeSets) : (ps.addNotices g).Vacant := by
  rwa [addNotices_inReset_eq ps g h.inReset]

theorem addHoldEnd (h : ps.Vacant) (e : HoldEnd) : (ps.addHoldEnd e).Vacant := by
  have hsame : ps.addHoldEnd e = ps := if_pos h.inReset
  rwa [hsame]

theorem deliver (h : ps.Vacant) (r : Request) (e : Ending) : (ps.deliver r e).Vacant := by
  unfold PortState.deliver
  split
  · split
    · exact h
    · have hsame : ps.enterFault r e.status e.ackCount = ps := if_pos h.inReset
      rwa [hsame]
  · rwa [pushResult_inReset_eq ps _ h.inReset]

/-- A change of the open requests, of which there are none. -/
theorem withReqs (h : ps.Vacant) {l : List Request} (hl : l = []) : Vacant { ps with reqs := l } :=
  { h with reqs := hl }

theorem complete (h : ps.Vacant) (r : Request) (e : Ending) : (ps.complete r e).Vacant :=
  (h.withReqs (by rw [h.reqs, List.eraseP_nil])).deliver r e

theorem setReqState (h : ps.Vacant) (tag : Byte) (st : ReqState) : (ps.setReqState tag st).Vacant :=
  h.withReqs (by rw [h.reqs, List.map_nil])

theorem completeAll (h : ps.Vacant) (sel : Request → Bool) (st : Status) : (ps.completeAll sel st).Vacant := by
  rw [PortState.completeAll, h.reqs]
  exact h.withReqs rfl

theorem grantAll (h : ps.Vacant) (served : List Waiter) : (ps.grantAll served).Vacant := by
  rw [PortState.grantAll, h.reqs]
  exact h

end PortState.Vacant

/-- A port neither owns a semaphore nor stands in its interest set (R152). -/
structure Semaphore.Omits (x : Semaphore) (q : Port) : Prop where
  owner : x.owner ≠ some q
  interest : x.interest.getLsbD q.val = false

theorem Semaphore.free_omits (q : Port) : Semaphore.free.Omits q := ⟨nofun, by simp [Semaphore.free]⟩

namespace Semaphore.Omits

variable {x : Semaphore} {p q : Port}

theorem take (h : x.Omits q) (hp : p ≠ q) : Omits { x with owner := some p } q :=
  ⟨fun e => hp (Option.some.inj e), h.interest⟩

theorem join (h : x.Omits q) (hp : p ≠ q) :
    Omits { x with interest := x.interest ||| BitVec.twoPow 3 p.val } q := by
  have hval : p.val ≠ q.val := fun e => hp (Fin.ext e)
  exact ⟨h.owner, by simp [-BitVec.getLsbD_eq_getElem, h.interest, hval]⟩

theorem leave (h : x.Omits q) (p : Port) :
    Omits { x with interest := x.interest &&& ~~~(BitVec.twoPow 3 p.val) } q :=
  ⟨h.owner, by rw [BitVec.getLsbD_and, h.interest, Bool.false_and]⟩

end Semaphore.Omits

/-- A port neither holds the key of an entry nor waits for it. -/
theorem HoldEntry.not_mem_ports (e : HoldEntry) {q : Port} :
    q ∉ e.ports ↔ e.holder ≠ q ∧ q ∉ e.waiters.map (·.port) := by
  rw [HoldEntry.ports, List.mem_cons, not_or, ne_comm]

namespace State

variable {s t : State} {p q : Port} {g : Seg} {i : HoldIdx} {r : Request}

/-- A port that is IN_RESET and has no frame, request, record, semaphore, interest, hold or wait (R159). -/
structure Absent (s : State) (q : Port) : Prop where
  port : (s.port q).Vacant
  sems : ∀ n, (s.sem n).Omits q
  holds : ∀ i e, s.hold i = some e → q ∉ e.ports

theorem resetPortsEmpty_iff :
    ResetPortsEmpty s ↔ (s.held = false → ∀ p, (s.port p).inReset = true → Absent s p) := by
  refine forall_congr' fun _ => forall_congr' fun p => forall_congr' fun hreset => ?_
  constructor
  · rintro ⟨hframe, hreqs, hresults, hfault, hends, hlost, hnotices, hsems, hholds⟩
    exact ⟨⟨hreset, hframe, hreqs, hresults, hfault, hends, hlost, hnotices⟩,
      fun n => (hsems n).elim .mk, fun i e he => e.not_mem_ports.mpr (hholds i e he)⟩
  · exact fun h => ⟨h.port.frame, h.port.reqs, h.port.results, h.port.postedFault, h.port.holdEnds, h.port.lostEnds,
      h.port.notices, fun n => ⟨(h.sems n).owner, (h.sems n).interest⟩,
      fun i e he => e.not_mem_ports.mp (h.holds i e he)⟩

namespace Absent

/-! ### Updates of the state -/

theorem not_running (h : Absent s q) : s.running q = false := by
  simp [running, h.port.inReset]

/-- A port that runs is another one. -/
theorem ne_of_running (h : Absent s q) (hrun : s.running p = true) : p ≠ q := by
  rintro rfl
  simp [h.not_running] at hrun

/-- A port with an open request is another one. -/
theorem ne_of_mem (h : Absent s q) (hr : r ∈ (s.port p).reqs) : p ≠ q := by
  rintro rfl
  simp [h.port.reqs] at hr

variable {l : List Part}

theorem of_ports (h : Absent s q) (k : Keeps s t l) (hport : (t.port q).Vacant) (ms : .sems ∉ l := by decide)
    (mh : .holds ∉ l := by decide) : Absent t q where
  port := hport
  sems n := by
    rw [k.sem n ms]
    exact h.sems n
  holds i e he := h.holds i e ((k.hold i mh).symm.trans he)

theorem of_holds (h : Absent s q) (k : Keeps s t l) (hholds : ∀ i e, t.hold i = some e → q ∉ e.ports)
    (mp : .ports ∉ l := by decide) (ms : .sems ∉ l := by decide) : Absent t q where
  port := by
    rw [k.port q mp]
    exact h.port
  sems n := by
    rw [k.sem n ms]
    exact h.sems n
  holds := hholds

theorem of_sems (h : Absent s q) (k : Keeps s t l) (hsems : ∀ n, (t.sem n).Omits q)
    (mp : .ports ∉ l := by decide) (mh : .holds ∉ l := by decide) : Absent t q where
  port := by
    rw [k.port q mp]
    exact h.port
  sems := hsems
  holds i e he := h.holds i e ((k.hold i mh).symm.trans he)

/-- A change of other blocks. -/
theorem keeps (h : Absent s q) (k : Keeps s t l) (mp : .ports ∉ l := by decide) (ms : .sems ∉ l := by decide)
    (mh : .holds ∉ l := by decide) : Absent t q :=
  h.of_ports k (by rw [k.port q mp]; exact h.port) ms mh

theorem modifyPort (h : Absent s q) {f : PortState → PortState}
    (hf : (s.port q).Vacant → (f (s.port q)).Vacant) : Absent (s.modifyPort p f) q := by
  refine h.of_ports (modifyPort_keeps ..) ?_
  rw [modifyPort_port]
  split
  · exact hf h.port
  · exact h.port

theorem modifyPort_ne (h : Absent s q) (hp : p ≠ q) (f : PortState → PortState) : Absent (s.modifyPort p f) q :=
  h.of_ports (modifyPort_keeps ..) (by rw [modifyPort_port_ne s hp]; exact h.port)

theorem mapPorts (h : Absent s q) {f : Port → PortState → PortState} (hf : ∀ ps, ps.Vacant → (f q ps).Vacant) :
    Absent (s.mapPorts f) q :=
  h.of_ports (mapPorts_keeps ..) (by rw [mapPorts_port]; exact hf _ h.port)

theorem setHold (h : Absent s q) {x : Option HoldEntry} (hx : ∀ e, x = some e → q ∉ e.ports) :
    Absent (s.setHold i x) q := by
  refine h.of_holds (setHold_keeps ..) fun k e he => ?_
  rw [setHold_hold] at he
  split at he
  · exact hx e he
  · exact h.holds k e he

theorem setSem (h : Absent s q) {n : SemIdx} {x : Semaphore} (hx : x.Omits q) : Absent (s.setSem n x) q := by
  refine h.of_sems (setSem_keeps ..) fun m => ?_
  rw [setSem_sem]
  split
  · exact hx
  · exact h.sems m

theorem foldl {α : Type} {f : State → α → State} (hf : ∀ s a, Absent s q → Absent (f s a) q) (l : List α) :
    ∀ {s : State}, Absent s q → Absent (l.foldl f s) q := by
  induction l with
  | nil => exact id
  | cons a l ih => exact fun h => ih (hf _ a h)

/-! ### Requests and holds -/

theorem completeReq (h : Absent s q) (p : Port) (r : Request) (e : Ending) : Absent (s.completeReq p r e) q :=
  h.modifyPort fun v => v.complete r e

theorem dropWaiters (h : Absent s q) (p : Port) (sel : Byte → Bool) : Absent (s.dropWaiters p sel) q := by
  refine h.of_holds (dropWaiters_keeps ..) fun i x hx => ?_
  rw [State.dropWaiters, mapHolds_hold] at hx
  obtain ⟨e, he, rfl⟩ := Option.map_eq_some_iff.mp hx
  exact fun hq => h.holds i e he ((ports_filter_sublist e _).subset hq)

/-- An entry is handed over to one of its own waiters (R57). -/
theorem not_mem_handedOver (h : Absent s q) {e x : HoldEntry} (he : s.hold i = some e)
    (hx : e.handedOver = some x) : q ∉ x.ports := by
  rw [handedOver_ports hx]
  exact fun hq => h.holds i e he (List.mem_of_mem_tail hq)

theorem handOver (h : Absent s q) (i : HoldIdx) : Absent (s.handOver i) q := by
  unfold State.handOver
  split
  · exact h
  · next e he =>
    have hset : Absent (s.setHold i e.handedOver) q := h.setHold fun _ hx => h.not_mem_handedOver he hx
    split
    · exact hset
    · dsimp only
      split
      · exact hset.completeReq _ _ _
      · exact hset

theorem expire (h : Absent s q) (i : HoldIdx) : Absent (s.expire i) q := by
  unfold State.expire
  split
  · exact h
  · exact Absent.handOver (h.modifyPort fun v => v.addHoldEnd _) i

theorem decreaseHold (h : Absent s q) (i : HoldIdx) : Absent (s.decreaseHold i) q := by
  unfold State.decreaseHold
  split
  · exact h
  · next e he =>
    split
    · exact h.setHold fun _ hx => Option.some.inj hx ▸ h.holds i e he
    · exact h.expire i

/-- The HOLD of another port settles: that port alone joins the table (R55). -/
theorem settleHold (h : Absent s q) (hp : p ≠ q) (r : Request) : Absent (s.settleHold p r) q := by
  unfold State.settleHold
  dsimp only
  split
  · next i _ =>
    split
    · next e he =>
      split
      · exact h.completeReq _ _ _
      · refine Absent.modifyPort_ne (h.setHold fun x hx => ?_) hp _
        obtain rfl := Option.some.inj hx
        have hbefore := h.holds i e he
        simpa [HoldEntry.ports, hp.symm] using hbefore
    · exact h
  · split
    · refine Absent.completeReq (h.setHold fun x hx => ?_) _ _ _
      obtain rfl := Option.some.inj hx
      simpa [HoldEntry.ports] using hp.symm
    · exact h.completeReq _ _ _

theorem settleRelease (h : Absent s q) (p : Port) (r : Request) : Absent (s.settleRelease p r) q := by
  unfold State.settleRelease
  split
  · split
    · exact (h.handOver _).completeReq _ _ _
    · exact h.completeReq _ _ _
  · exact h.completeReq _ _ _

theorem addOpen (h : Absent s q) (hp : p ≠ q) (r : Request) : Absent (s.addOpen p r) q := h.modifyPort_ne hp _

theorem cancelReq (h : Absent s q) (p : Port) (tag : Byte) : Absent (s.cancelReq p tag).1 q := by
  unfold State.cancelReq
  split
  · exact h
  · split
    · exact h.completeReq _ _ _
    · exact (h.dropWaiters _ _).completeReq _ _ _
    · exact h

/-! ### Polls -/

/-- Notices go to a set of ports; one that is IN_RESET is given none (R139). -/
theorem tell (h : Absent s q) (sel : Port → Bool) (n : NoticeSets) :
    Absent (s.mapPorts fun p ps => if sel p then ps.addNotices n else ps) q :=
  h.mapPorts fun ps v => by
    split
    · exact v.addNotices n
    · exact v

theorem completePoll (h : Absent s q) (n : PollIdx) (st : Status) (data : List Byte) :
    Absent (s.completePoll n st data) q := by
  unfold State.completePoll
  dsimp only
  split
  · exact h.keeps (setPoll_keeps ..)
  · refine Absent.keeps ?_ (setPoll_keeps ..)
    split
    · exact h.tell _ _
    · exact h

theorem becomeDue (h : Absent s q) (n : PollIdx) : Absent (s.becomeDue n) q := by
  unfold State.becomeDue
  dsimp only
  split
  · exact h.keeps (setPoll_keeps ..)
  · split
    · exact (h.keeps (setPoll_keeps ..)).completePoll _ _ _
    · exact (h.keeps (setPoll_keeps ..)).keeps (setDue_keeps ..)

theorem countdown (h : Absent s q) (n : PollIdx) : Absent (s.countdown n) q := by
  unfold State.countdown
  dsimp only
  split
  · split
    · exact h.keeps (setPoll_keeps ..)
    · exact h.becomeDue n
  · exact h

theorem undue_setPoll (h : Absent s q) (n : PollIdx) (x : PollEntry) : Absent ((s.undue n).setPoll n x) q :=
  (h.keeps (undue_keeps ..)).keeps (setPoll_keeps ..)

/-! ### Engines and arbiters -/

/-- A port with nothing on the segment loses nothing with it, and is not told (R52, R67, R102, R139). -/
theorem offline (h : Absent s q) (o : OfflineEffects s t g) : Absent t q where
  port :=
    have v := h.port
    have d := o.requests q
    have hends : (t.port q).holdEnds = (s.port q).holdEnds ∧ (t.port q).lostEnds = (s.port q).lostEnds := by
      simpa only [EndsAdded, v.inReset, if_true] using o.ends q
    have hpin : (t.port q).inReset = (s.port q).inReset := by
      obtain ⟨-, hpin, -⟩ := d.kept
      exact hpin
    { inReset := hpin.trans v.inReset
      frame := by simpa [v.frame] using d.reply
      reqs := by rw [d.reqs, v.reqs, List.filter_nil]
      results := by simp [d.results, v.results, v.inReset]
      postedFault := by simp [d.fault, v.postedFault, v.inReset]
      holdEnds := hends.1.trans v.holdEnds
      lostEnds := hends.2.trans v.lostEnds
      notices := by simp [o.notices, v.notices, v.inReset] }
  sems n := by
    rw [o.rest.sem]
    exact h.sems n
  holds i e he := by
    rw [o.holds, Option.filter_eq_some_iff] at he
    exact h.holds i e he.1

theorem enterDisabled (h : Absent s q) (g : Seg) : Absent (s.enterDisabled g) q := h.offline (enterDisabled_effects s g)

theorem enterFaulted (h : Absent s q) (g : Seg) (reason : FaultReason) : Absent (s.enterFaulted g reason) q :=
  h.offline (enterFaulted_effects s g reason)

theorem segmentNotice (h : Absent s q) (g : Seg) : Absent (s.segmentNotice g) q := h.mapPorts fun _ v => v.addNotices _

theorem tryRecovery (h : Absent s q) (g : Seg) : Absent (s.tryRecovery g) q := by
  unfold State.tryRecovery
  dsimp only
  split
  · exact h.keeps (setEngine_keeps ..)
  · exact h.enterFaulted g _

theorem leaveTo (h : Absent s q) (g : Seg) (next : EngineState) : Absent (s.leaveTo g next) q := by
  unfold State.leaveTo
  split
  · exact h.enterDisabled g
  · exact h.keeps (setEngineState_keeps ..)

theorem afterPulse (h : Absent s q) (g : Seg) (n : Nat) (hub sda : Bool) : Absent (s.afterPulse g n hub sda) q := by
  unfold State.afterPulse
  split
  · exact h.keeps (enterChecking_keeps ..)
  · split
    · exact h.keeps (setEngineState_keeps ..)
    · split
      · exact h.keeps (setEngineState_keeps ..)
      · exact h.enterFaulted g _

theorem handOutcome (h : Absent s q) (g : Seg) (c : Carrier) (e : Ending) : Absent (s.handOutcome g c e) q := by
  unfold State.handOutcome
  split
  · split
    · exact h.completeReq _ _ e
    · exact h
  · exact h.completePoll _ _ _
  · exact h

theorem endTransaction (h : Absent s q) (g : Seg) (x : Transaction) (e : Ending) :
    Absent (s.endTransaction g x e) q := by
  have hcounted : Absent ((s.count g (countEnd e.status)).clearTries g) q :=
    (h.keeps (count_keeps ..)).keeps (setEngine_keeps ..)
  exact (hcounted.handOutcome _ _ _).leaveTo _ _

theorem conflict (h : Absent s q) (g : Seg) (x : Transaction) (acks : List Bool) : Absent (s.conflict g x acks) q :=
  ((h.keeps (count_keeps ..)).handOutcome _ _ _).leaveTo _ _

theorem expireLimit (h : Absent s q) (g : Seg) (x : Transaction) (acks : List Bool) :
    Absent (s.expireLimit g x acks) q := by
  unfold State.expireLimit
  dsimp only
  split
  · exact ((h.keeps (count_keeps ..)).handOutcome _ _ _).enterDisabled g
  · exact ((h.keeps (count_keeps ..)).handOutcome _ _ _).tryRecovery g

theorem grant (h : Absent s q) (g : Seg) (c : Candidate) : Absent (s.grant g c) q := by
  cases c with
  | request p r => exact Absent.keeps (h.modifyPort fun v => v.setReqState _ _) (setEngine_keeps ..)
  | poll n => exact ((h.keeps (setDue_keeps ..)).keeps (setPoll_keeps ..)).keeps (setEngine_keeps ..)

theorem runDecision (g : Seg) (fuel : Nat) : ∀ {s : State}, Absent s q → Absent (State.runDecision g fuel s) q := by
  induction fuel with
  | zero => exact id
  | succ fuel ih =>
    intro s h
    have harbiter (a : Arbiter) : Absent (s.setArbiter g a) q := h.keeps (setArbiter_keeps ..)
    unfold State.runDecision
    split
    · exact h
    · split
      · exact h
      · split
        · exact ih ((harbiter _).completeReq _ _ _)
        · exact (harbiter _).grant _ _
      · exact (harbiter _).grant _ _

/-! ### Routes -/

theorem sweep (h : Absent s q) (i : RouteIdx) : Absent (s.sweep i) q where
  port := by
    rw [sweep_port]
    exact h.port.completeAll _ _
  sems n := by
    rw [(sweep_keeps s i).sem]
    exact h.sems n
  holds k x hx := by
    rw [sweep_hold] at hx
    obtain ⟨e, he, rfl⟩ := Option.map_eq_some_iff.mp hx
    exact fun hq => h.holds k e he ((ports_filter_sublist e _).subset hq)

theorem routeSet (h : Absent s q) (i : RouteIdx) (f : RouteFields) : Absent (s.routeSet i f).state q := by
  have hset (e : RouteEntry) : Absent (s.setRoute i e) q := h.keeps (setRoute_keeps ..)
  unfold State.routeSet
  split
  · exact h
  · split
    · exact h
    · split
      · exact (hset _).sweep i
      · exact hset _

theorem routeClear (h : Absent s q) (i : RouteIdx) : Absent (s.routeClear i).state q := by
  unfold State.routeClear
  split
  · exact (h.keeps (setRoute_keeps ..)).sweep i
  · exact h

/-! ### Semaphores -/

/-- Another port takes the semaphore or joins its interest set (R147). -/
theorem semTake (h : Absent s q) (hp : p ≠ q) (n : SemIdx) : Absent (s.semTake p n).1 q := by
  unfold State.semTake
  split
  · exact h
  · split
    · exact h.setSem ((h.sems n).take hp)
    · split
      · exact h
      · exact h.setSem ((h.sems n).join hp)

theorem freeSem (h : Absent s q) (n : SemIdx) : Absent (s.freeSem n) q := (h.setSem (Semaphore.free_omits q)).tell _ _

theorem semGive (h : Absent s q) (p : Port) (n : SemIdx) : Absent (s.semGive p n).1 q := by
  unfold State.semGive
  split
  · exact h.freeSem n
  · exact h

theorem semBreak (h : Absent s q) (n : SemIdx) : Absent (s.semBreak n).1 q := by
  cases ho : (s.sem n).owner with
  | none => rwa [semBreak_free ho]
  | some p =>
    rw [semBreak_owned ho]
    exact Absent.modifyPort (f := (·.addNotices (.ofLost n))) (h.freeSem n) fun v => v.addNotices _

theorem freeOwned (h : Absent s q) (p : Port) : Absent (s.freeOwned p) q := by
  refine Absent.foldl (fun s n h => ?_) _ h
  split
  · exact h.freeSem n
  · exact h

/-! ### Resets -/

theorem handOverAll (h : Absent s q) (p : Port) : Absent (s.handOverAll p) q where
  port := by
    rw [handOverAll_port]
    exact h.port.grantAll _
  sems n := by
    rw [(handOverAll_keeps s p).sem]
    exact h.sems n
  holds i x hx := by
    rw [handOverAll_hold] at hx
    obtain ⟨e, he, hx⟩ := Option.bind_eq_some_iff.mp hx
    split at hx
    · exact h.not_mem_handedOver he hx
    · exact Option.some.inj hx ▸ h.holds i e he

/-- A reset of another port hands nothing to this one (R152, R160). -/
theorem resetPort (h : Absent s q) (hp : p ≠ q) : Absent (s.resetPort p) q := by
  have hcut := ((h.modifyPort_ne hp clearedPort).keeps (mapEngines_keeps _ (Engine.cutPort p s.freeCount))).keeps
    (draw_keeps _)
  have hserved := (hcut.dropWaiters p fun _ => true).handOverAll p
  have hleft : Absent ((s.resetBlocks p).dropInterest p) q := by
    refine Absent.of_sems (hserved.keeps (mapArbiters_keeps ..)) (dropInterest_keeps _ p) fun n => ?_
    rw [dropInterest_sem]
    exact (h.sems n).leave p
  exact hleft.freeOwned p

/-- A HUB RESET takes from every port, and tells none that is IN_RESET (R145, R164). -/
theorem hubReset (h : Absent s q) : Absent s.hubReset q where
  port := by
    rw [hubReset_port_eq]
    exact
      { inReset := h.port.inReset
        frame := by simp [PortState.hubReset, clearedPort, noteFrame, h.port.frame]
        reqs := rfl
        results := rfl
        postedFault := rfl
        holdEnds := rfl
        lostEnds := rfl
        notices := by simp [h.port.inReset] }
  sems n := by
    rw [(hubReset_effects s).sems]
    exact Semaphore.free_omits q
  holds i e he := by
    rw [(hubReset_effects s).holds] at he
    cases he

end Absent

/-- A port that enters IN_RESET leaves nothing behind: the port-reset effects take all it has, and its frame in progress
is abandoned (R49, R68, R152, R159, R160). -/
theorem absent_resetPort_setPrst (s : State) (p : Port) : Absent ((s.resetPort p).setPrst p true) p where
  port := by
    rw [setPrst, modifyPort_port_self, resetPort_port_self]
    exact ⟨rfl, rfl, rfl, rfl, rfl, rfl, rfl, rfl⟩
  sems n := by
    rw [setPrst, modifyPort_sem, resetPort_sem]
    split
    · exact Semaphore.free_omits p
    · next howner => exact ⟨howner, by simp [-BitVec.getLsbD_eq_getElem]⟩
  holds i x hx := by
    rw [setPrst, modifyPort_hold, resetPort_hold] at hx
    obtain ⟨e, he, hx⟩ := Option.bind_eq_some_iff.mp hx
    obtain ⟨e, -, rfl⟩ := Option.map_eq_some_iff.mp he
    have hwaiters : p ∉ (withoutPort e p).waiters.map (·.port) := by simp [withoutPort]
    split at hx
    · rw [handedOver_ports hx]
      exact hwaiters
    · next hholder =>
      obtain rfl := Option.some.inj hx
      exact (HoldEntry.not_mem_ports _).mpr ⟨hholder, hwaiters⟩

end State

end Sys2Proof.Machine
end

section
/-! PROOF. A port that is IN_RESET and has nothing anywhere stays so under every command that moves no reset pin, and
every step leaves every port that is IN_RESET with nothing (R159). -/

namespace Sys2Proof.Machine

set_option Elab.async false

open State PortState

namespace State

variable {s t : State} {p q : Port}

namespace Absent

/-! ### Frames and events -/

theorem noFrame (h : Absent s q) (p : Port) : Absent (s.noFrame p) q := h.modifyPort fun v => { v with frame := rfl }

/-- A frame is taken on a port that runs, so on another one. -/
theorem takeFrame (h : Absent s q) {k : Option FrameKind} {n : Nat} {act : State → Answer}
    (hact : ∀ s, p ≠ q → Absent s q → Absent (act s).state q) : Absent (Machine.takeFrame p k n act s) q := by
  cases hrun : s.running p with
  | false => rwa [takeFrame_not_running hrun]
  | true =>
    have hp := h.ne_of_running hrun
    rw [takeFrame_running hrun]
    exact (hact _ hp (h.noFrame p)).modifyPort_ne hp _

theorem frameOf (h : Absent s q) {k : FrameKind} {act : State → Answer}
    (hact : ∀ s, p ≠ q → Absent s q → Absent (act s).state q) : Absent (Machine.frameOf p k act s) q :=
  h.takeFrame hact

theorem withIndex (h : Absent s q) {n : Nat} {b : Byte} {k : FrameKind} {act : Fin n → Answer}
    (hact : ∀ i, Absent (act i).state q) : Absent (Machine.withIndex n b k s act).state q := by
  unfold Machine.withIndex
  split
  · exact hact _
  · exact h

theorem withClaim (h : Absent s q) {k : FrameKind} {act : Answer} (hact : Absent act.state q) :
    Absent (Machine.withClaim p k s act).state q := by
  unfold Machine.withClaim
  split
  · exact hact
  · exact h

theorem claimedFrame (h : Absent s q) {n : Nat} {b : Byte} {k : FrameKind} {act : State → Fin n → Answer}
    (hact : ∀ s i, Absent s q → Absent (act s i).state q) : Absent (Machine.claimedFrame p k b act s) q :=
  h.frameOf fun s _ h => h.withClaim (h.withIndex fun i => hact s i h)

theorem semFrame (h : Absent s q) {k : FrameKind} {b : Byte} {act : State → SemIdx → State × ReplyStatus}
    (hact : ∀ s i, p ≠ q → Absent s q → Absent (act s i).1 q) : Absent (Machine.semFrame p k b act s) q :=
  h.frameOf fun s hp h => by
    split
    · exact h
    · exact hact s _ hp h

/-- The end of a frame comes on a port that runs, so on another one. -/
theorem frameEnd (h : Absent s q) {k : FrameKind} {act : Snapshot → State → State}
    (hact : ∀ x s, p ≠ q → Absent s q → Absent (act x s) q) : Absent (Machine.frameEnd p k act s) q := by
  unfold Machine.frameEnd
  split
  · split
    · next hend => exact hact _ _ (h.ne_of_running hend.1) (h.noFrame p)
    · exact h
  · exact h

theorem hubEvent (h : Absent s q) {act : State → State} (hact : Absent (act s) q) :
    Absent (Machine.hubEvent act s) q := by
  unfold Machine.hubEvent
  split
  · exact h
  · exact hact

theorem next (h : Absent s q) (e : (.next s : Host.Outcome State Fault Refusal) = .next t) : Absent t q := by
  cases e
  exact h

/-! ### The blocks of the commands -/

theorem segmentDisable (h : Absent s q) (g : Seg) : Absent (s.segmentDisable g).state q := by
  unfold State.segmentDisable
  split
  · exact h
  iterate 4
    · exact h.enterDisabled g
  iterate 3
    · exact h.keeps (setEngine_keeps ..)

theorem segmentRestore (h : Absent s q) (g : Seg) : Absent (s.segmentRestore g).state q := by
  unfold State.segmentRestore
  split
  · exact (h.keeps (setEngine_keeps ..)).segmentNotice g
  · exact h

theorem segmentSet (h : Absent s q) (g : Seg) (f : SegmentFields) : Absent (s.segmentSet g f).state q := by
  unfold State.segmentSet
  split
  · exact h
  · exact (h.keeps (setEngine_keeps ..)).keeps (setArbiter_keeps ..)

theorem pollSet (h : Absent s q) (n : PollIdx) (f : PollFields) : Absent (s.pollSet n f).state q := by
  unfold State.pollSet
  split
  · exact h
  · split
    · exact h.undue_setPoll n _
    · exact h

theorem pollStart (h : Absent s q) (n : PollIdx) : Absent (s.pollStart n).state q := by
  unfold State.pollStart
  dsimp only
  split
  · dsimp only
    split
    · exact h
    · exact h.keeps (setPoll_keeps ..)
  · exact h

theorem fetchRemoval (h : Absent s q) (hp : p ≠ q) (x : Snapshot) : Absent (Machine.fetchRemoval p x s) q := by
  unfold Machine.fetchRemoval
  split
  · exact h.modifyPort_ne hp _
  · exact h

theorem postedFaultRemoval (h : Absent s q) (hp : p ≠ q) (x : Snapshot) :
    Absent (Machine.postedFaultRemoval p x s) q := by
  unfold Machine.postedFaultRemoval
  split
  · exact h.modifyPort_ne hp _
  · exact h

theorem holdEndsRemoval (h : Absent s q) (hp : p ≠ q) (x : Snapshot) :
    Absent (Machine.holdEndsRemoval p x s) q := by
  unfold Machine.holdEndsRemoval
  split
  · exact h.modifyPort_ne hp _
  · exact h

theorem noticesRemoval (h : Absent s q) (hp : p ≠ q) (x : Snapshot) : Absent (Machine.noticesRemoval p x s) q := by
  unfold Machine.noticesRemoval
  split
  · exact h.modifyPort_ne hp _
  · exact h

/-! ### Every command -/

/-- A port that is IN_RESET and has nothing is given nothing by a command that moves no reset pin: what is taken or
settles is another port's, and what is handed out passes it by. -/
theorem exec (h : Absent s q) {c : Instr} (hc : c.movesPin = false) (e : Machine.exec c s = .next t) :
    Absent t q := by
  cases c with
  | prstxnFall | prstxnRise | resetnFall | resetnRise => cases hc
  | lineLowInIdle | freeWindowComplete | freeWindowRestart | recoverySclHigh | ageIncrease =>
    have hkeeps := exec_keeps e
    dsimp only [changes] at hkeeps
    exact h.keeps hkeeps
  | submit p f =>
    refine (h.takeFrame fun s hp h => ?_).next e
    split
    · exact h.addOpen hp _
    · exact h
  | badFrame p kind => exact (h.takeFrame fun _ hp h => h.modifyPort_ne hp _).next e
  | framingError p | frameEndsEarly p =>
    refine Absent.next ?_ e
    split
    · next hrun => exact h.modifyPort_ne (h.ne_of_running hrun) _
    · exact h
  | cancel p tag => exact (h.frameOf fun _ _ h => h.cancelReq p tag).next e
  | laneInspect | hubInfo | portReset | holdEnds | notices => exact (h.frameOf fun _ _ h => h).next e
  | fetch | postedFault =>
    refine (h.frameOf fun s _ h => ?_).next e
    split <;> exact h
  | causes p clear =>
    refine (h.frameOf fun s hp h => ?_).next e
    dsimp only
    split
    · exact h.modifyPort_ne hp _
    · exact h
  | causeMask p mask =>
    refine (h.frameOf fun s hp h => ?_).next e
    dsimp only
    exact h.modifyPort_ne hp _
  | fetchNormalEnd p => exact (h.frameEnd fun x _ hp h => h.fetchRemoval hp x).next e
  | postedFaultNormalEnd p => exact (h.frameEnd fun x _ hp h => h.postedFaultRemoval hp x).next e
  | holdEndsNormalEnd p => exact (h.frameEnd fun x _ hp h => h.holdEndsRemoval hp x).next e
  | noticesNormalEnd p => exact (h.frameEnd fun x _ hp h => h.noticesRemoval hp x).next e
  | semTake p n =>
    rw [exec_semTake] at e
    exact (h.semFrame fun _ i hp h => h.semTake hp i).next e
  | semGive p n =>
    rw [exec_semGive] at e
    exact (h.semFrame fun _ i _ h => h.semGive p i).next e
  | semBreak p n =>
    refine (h.frameOf fun s _ h => ?_).next e
    split
    · exact h
    · split
      · exact h
      · exact h.semBreak _
  | routeSet p f => exact (h.claimedFrame fun _ i h => h.routeSet i f).next e
  | routeClear p index => exact (h.claimedFrame fun _ i h => h.routeClear i).next e
  | routeGet | pollGet | pollRead => exact (h.frameOf fun _ _ h => h.withIndex fun _ => h).next e
  | pollSet p f => exact (h.claimedFrame fun _ n h => h.pollSet n f).next e
  | pollStart p index => exact (h.claimedFrame fun _ n h => h.pollStart n).next e
  | pollStop p index => exact (h.claimedFrame fun _ n h => h.undue_setPoll n _).next e
  | segmentSet p f => exact (h.claimedFrame fun _ g h => h.segmentSet g f).next e
  | segmentGet p g => exact (h.frameOf fun _ _ h => h.withIndex fun _ => h.keeps (look_keeps ..)).next e
  | segmentDisable p g => exact (h.claimedFrame fun _ g h => h.segmentDisable g).next e
  | segmentRestore p g => exact (h.claimedFrame fun _ g h => h.segmentRestore g).next e
  | statsClear p g => exact (h.claimedFrame fun _ _ h => h.keeps (setEngine_keeps ..)).next e
  | hubReset p =>
    refine (h.frameOf fun s _ h => ?_).next e
    split
    · exact h
    · exact h.withClaim h
  | portResetNormalEnd p => exact (h.frameEnd fun _ _ hp h => h.resetPort hp).next e
  | hubResetNormalEnd p =>
    refine (h.frameEnd fun x s _ h => ?_).next e
    split
    · exact h.hubReset
    · exact h
  | arbiterDecision g =>
    refine (h.hubEvent ?_).next e
    split
    · exact runDecision g _ h
    · exact h
  | holdSettlement p g =>
    refine (h.hubEvent ?_).next e
    split
    · next r hr => exact h.settleHold (h.ne_of_mem (settleable_mem hr)) r
    · exact h
  | releaseSettlement p g =>
    refine (h.hubEvent ?_).next e
    split
    · exact h.settleRelease p _
    · exact h
  | holdDecrease i => exact (h.hubEvent (h.decreaseHold i)).next e
  | holdExpiry i =>
    refine (h.hubEvent ?_).next e
    split
    · split
      · exact h.expire i
      · exact h
    · exact h
  | transactionEnd g acks data =>
    refine (h.hubEvent ?_).next e
    split
    · split
      · exact h
      · exact h.endTransaction g _ _
    · exact h
  | lineConflict g acks =>
    refine (h.hubEvent ?_).next e
    split
    · exact h.conflict g _ acks
    · exact h
  | timeout g acks =>
    refine (h.hubEvent ?_).next e
    split
    · exact h.expireLimit g _ acks
    · exact h
  | cutEnd g =>
    refine (h.hubEvent ?_).next e
    split
    · split
      · exact h.leaveTo g _
      all_goals exact h
    · exact h
  | limitWindowEnd g =>
    refine (h.hubEvent ?_).next e
    split
    · exact h.tryRecovery g
    · exact h
  | recoverySclTimeout g =>
    refine (h.hubEvent ?_).next e
    split
    · split
      · exact h.enterDisabled g
      · exact h.enterFaulted g _
    · exact h
  | recoveryPulseEnd g sda =>
    refine (h.hubEvent ?_).next e
    split
    · split
      · exact h.enterDisabled g
      · exact h.afterPulse g _ _ sda
    · exact h
  | recoveryStopEnd g =>
    refine (h.hubEvent ?_).next e
    split
    · exact h.leaveTo g _
    · exact h
  | pollCountdown n => exact (h.hubEvent (h.countdown n)).next e
  | pollDue n =>
    refine (h.hubEvent ?_).next e
    split
    · exact h.becomeDue n
    · exact h

end Absent

/-! ### The pins and the idle hub -/

/-- Only RESETN changes whether the hub is held (R163). -/
theorem held_not_mem_changes {c : Instr} (hc : c.movesPin = false) : Part.held ∉ changes c := by
  cases c with
  | prstxnFall | prstxnRise | resetnFall | resetnRise => cases hc
  | _ => simp [changes]

theorem setPrst_keeps (s : State) (p : Port) (low : Bool) : Keeps s (s.setPrst p low) [.ports] := modifyPort_keeps ..

theorem setPrst_inReset (s : State) (p : Port) (low : Bool) (q : Port) :
    ((s.setPrst p low).port q).inReset = if p = q then low else (s.port q).inReset := by
  rw [setPrst, modifyPort_port]
  split <;> rfl

/-- What an idle hub does reaches no port, no semaphore and no hold (log 1). -/
theorem idle_keeps (s : State) : Keeps s s.idle [.engines, .tenth, .pending, .freeCount] := by
  unfold idle
  split
  · exact .refl ..
  · split
    · exact (countMark_keeps s).mono.trans (enqueue_keeps ..).mono
    · exact (enqueue_keeps ..).mono

namespace ResetPortsEmpty

theorem next {u : State} (h : ResetPortsEmpty u) (e : (.next u : Host.Outcome State Fault Refusal) = .next t) :
    ResetPortsEmpty t := by
  cases e
  exact h

/-- The hub is held as before, no port enters IN_RESET, and every port that stays there is given nothing. -/
theorem of_absent (h : ResetPortsEmpty s) (hheld : t.held = s.held)
    (hpins : ∀ p, (t.port p).inReset = true → (s.port p).inReset = true) (habsent : ∀ p, Absent s p → Absent t p) :
    ResetPortsEmpty t :=
  resetPortsEmpty_iff.mpr fun hrun p hp =>
    habsent p (resetPortsEmpty_iff.mp h (hheld.symm.trans hrun) p (hpins p hp))

theorem idle (h : ResetPortsEmpty s) : ResetPortsEmpty s.idle :=
  have k := idle_keeps s
  h.of_absent k.held (fun p hp => by rwa [k.port p] at hp) fun _ a => a.keeps k

/-- PRSTxN falls on a port that runs: it is reset, and the others stay as they are (R159). -/
theorem enterReset (h : ResetPortsEmpty s) (p : Port) : ResetPortsEmpty ((s.resetPort p).setPrst p true) := by
  refine resetPortsEmpty_iff.mpr fun hheld q hq => ?_
  by_cases hp : p = q
  · exact hp ▸ absent_resetPort_setPrst s p
  · rw [setPrst_inReset, if_neg hp, ((resetPort_samePins s p).same q).2] at hq
    rw [(setPrst_keeps ..).held, (resetPort_keeps ..).held] at hheld
    exact ((resetPortsEmpty_iff.mp h hheld q hq).resetPort hp).modifyPort_ne hp _

/-- PRSTxN falls on a port that does not run: unless RESETN is low, it was IN_RESET before (R159, log 2, log 5). -/
theorem stayInReset (h : ResetPortsEmpty s) (hrun : s.running p = false) : ResetPortsEmpty (s.setPrst p true) := by
  refine resetPortsEmpty_iff.mpr fun hheld q hq => ?_
  rw [(setPrst_keeps ..).held] at hheld
  have hreset : (s.port q).inReset = true := by
    rw [setPrst_inReset] at hq
    split at hq
    · next hp =>
      subst hp
      simpa [running, hheld] using hrun
    · exact hq
  exact (resetPortsEmpty_iff.mp h hheld q hreset).modifyPort fun v => { v with inReset := rfl, frame := rfl }

/-- PRSTxN rises: the port leaves IN_RESET, and the others stay as they are (R159). -/
theorem leaveReset (h : ResetPortsEmpty s) (p : Port) : ResetPortsEmpty (s.setPrst p false) := by
  refine resetPortsEmpty_iff.mpr fun hheld q hq => ?_
  rw [(setPrst_keeps ..).held] at hheld
  rw [setPrst_inReset] at hq
  split at hq
  · cases hq
  · next hp => exact (resetPortsEmpty_iff.mp h hheld q hq).modifyPort_ne hp _

/-- A command that moves no pin gives such a port nothing; PRSTxN takes a port in with a port reset or out; while RESETN
is low nothing is claimed, and its rise empties every port. -/
theorem exec (h : ResetPortsEmpty s) {c : Instr} (e : Machine.exec c s = .next t) : ResetPortsEmpty t := by
  cases hc : c.movesPin with
  | false =>
    exact h.of_absent ((exec_keeps e).held (held_not_mem_changes hc))
      (fun p hp => by rwa [((exec_samePins hc e).same p).2] at hp) fun _ a => a.exec hc e
  | true =>
    cases c with
    | prstxnFall p =>
      refine ResetPortsEmpty.next ?_ e
      split
      · exact h.enterReset p
      · next hrun => exact h.stayInReset (Bool.eq_false_iff.mpr hrun)
    | prstxnRise p =>
      refine ResetPortsEmpty.next ?_ e
      split
      · exact h.leaveReset p
      · exact h
    | resetnFall =>
      obtain ⟨u, hu, -, hheld, -⟩ := exec_resetnFall_keeps s
      have hvacuous : ResetPortsEmpty u := fun hrun => by simp [hheld] at hrun
      exact hvacuous.next (hu.symm.trans e)
    | resetnRise role0 role1 role2 =>
      obtain ⟨u, hu, hvalues⟩ := exec_resetnRise_values s #v[role0, role1, role2]
      exact hvalues.resetPortsEmpty.next (hu.symm.trans e)
    | _ => cases hc

end ResetPortsEmpty

end State

/-- Settles O59: the port-reset effects leave a port that enters IN_RESET with nothing, and after that no command hands
it a record, a notice, a semaphore or a hold, takes a frame on it or settles a request of it. -/
theorem stepKeepsResetPortsEmpty : Obligations.StepKeepsResetPortsEmpty := by
  intro s t h e
  unfold step at e
  split at e
  · exact h.idle.next e
  · next rest _ => exact ResetPortsEmpty.exec (s := { s with pending := rest }) h e

end Sys2Proof.Machine
end

section
/-! PROOF. The taking of commands: a step takes the front of the queue, every command answers a next state, and none is
taken on a port or a hub that is held in reset (R155, R159, R163, log 2). -/

namespace Sys2Proof.Machine

set_option Elab.async false

open State

/-- Settles O1: the queue's two cases are the definition of a step. -/
theorem stepRunsTheFrontCommand : Obligations.StepRunsTheFrontCommand := fun _ _ _ => rfl

/-- No command stops the hub (log 2). -/
theorem exec_next (c : Instr) (s : State) : ∃ t, exec c s = .next t := by
  cases c <;> exact ⟨_, rfl⟩

variable {c : Instr} {s : State} {p : Port}

/-- A port that does not run takes no frame, no frame end and no framing error (R159, R163). -/
theorem exec_framePort_not_running (hc : c.framePort? = some p) (hrun : s.running p = false) :
    exec c s = .next s := by
  cases c with
  | submit | badFrame =>
    cases hc
    exact congrArg _ (takeFrame_not_running hrun)
  | fetchNormalEnd | postedFaultNormalEnd | holdEndsNormalEnd | noticesNormalEnd | portResetNormalEnd
  | hubResetNormalEnd =>
    cases hc
    exact congrArg _ (frameEnd_not_running hrun)
  | framingError | frameEndsEarly =>
    cases hc
    exact congrArg _ (if_neg (Bool.eq_false_iff.mp hrun))
  | cancel | laneInspect | fetch | postedFault | holdEnds | notices | causes | causeMask | semTake | semGive | semBreak
  | routeSet | routeClear | routeGet | pollSet | pollStart | pollStop | pollGet | pollRead | segmentSet | segmentGet
  | segmentDisable | segmentRestore | statsClear | hubInfo | portReset | hubReset =>
    cases hc
    exact congrArg _ (frameOf_not_running hrun)
  | _ => cases hc

/-- The events of the hub itself do not happen while RESETN is low (R163). -/
theorem exec_event_held (hc : c.framePort? = none) (hpin : c.movesPin = false) (hheld : s.held = true) :
    exec c s = .next s := by
  cases c with
  | prstxnFall | prstxnRise | resetnFall | resetnRise => cases hpin
  | arbiterDecision | holdSettlement | releaseSettlement | holdDecrease | holdExpiry | transactionEnd | lineConflict
  | timeout | cutEnd | lineLowInIdle | freeWindowComplete | freeWindowRestart | limitWindowEnd | recoverySclHigh
  | recoverySclTimeout | recoveryPulseEnd | recoveryStopEnd | pollCountdown | pollDue | ageIncrease =>
    exact congrArg _ (hubEvent_held hheld)
  | _ => cases hc

theorem exec_held (hpin : c.movesPin = false) (hheld : s.held = true) : exec c s = .next s := by
  cases hc : c.framePort? with
  | none => exact exec_event_held hc hpin hheld
  | some p => exact exec_framePort_not_running hc (by simp [running, hheld])

/-- Settles O3: what is taken needs a port that runs, or is an event of a hub that is not held. -/
theorem everyCommandGoesOnAndResetTakesNone : Obligations.EveryCommandGoesOnAndResetTakesNone := by
  refine ⟨fun c s => ?_, fun _ _ hheld hpin => exec_held hpin hheld, fun _ _ _ hc hreset =>
    exec_framePort_not_running hc (by simp [running, hreset])⟩
  obtain ⟨t, ht⟩ := exec_next c s
  exact ⟨t, ht, (exec_keeps ht).pending (pending_not_mem_changes c)⟩

end Sys2Proof.Machine
end

section
/-! PROOF. HUB INFO, the request parts of the two reset frames, and the events that reset a port or end its reset (R159,
R161, R164, R165). -/

namespace Sys2Proof.Machine

set_option Elab.async false

open State

variable {s : State} {p : Port}

/-- Settles O12: the snapshot reads roles and semaphore 0, which the frame in progress does not touch. -/
theorem hubInfoReports : Obligations.HubInfoReports := by
  refine fun s p hrun => congrArg Host.Outcome.next (frameOf_reading hrun ?_)
  simp only [noFrame_port_role, noFrame_sem]
  rfl

/-! ### The request parts (R161, R164) -/

theorem exec_portReset (hrun : s.running p = true) :
    exec (.portReset p) s = .next (s.answers p .portReset [0x00]) :=
  congrArg Host.Outcome.next (frameOf_reading hrun rfl)

theorem exec_hubReset_member (hrun : s.running p = true) (hrole : (s.port p).role = .member) :
    exec (.hubReset p) s = .next (s.answers p .hubReset [0x12]) :=
  congrArg Host.Outcome.next (frameOf_reading hrun (if_pos ((noFrame_port_role ..).trans hrole)))

/-- A SUPERVISOR's HUB RESET is looked at by its claim. -/
theorem exec_hubReset_supervisor (hrun : s.running p = true) (hrole : (s.port p).role = .supervisor) {reply : List Byte}
    {snap : Snapshot} (hclaim : withClaim p .hubReset (s.noFrame p)
      ⟨s.noFrame p, answer .hubReset .ok, .hubReset⟩ = ⟨s.noFrame p, reply, snap⟩) :
    exec (.hubReset p) s = .next (s.answers p .hubReset reply snap) := by
  have hnot : ((s.noFrame p).port p).role ≠ .member := by simp [hrole]
  exact congrArg Host.Outcome.next (frameOf_reading hrun ((if_neg hnot).trans hclaim))

theorem exec_hubReset_unclaimed (hrun : s.running p = true) (hrole : (s.port p).role = .supervisor)
    (hclaim : (s.sem 0).owner ≠ some p) : exec (.hubReset p) s = .next (s.answers p .hubReset [0x13]) := by
  have hno : (s.noFrame p).hasClaim p = false := Bool.eq_false_iff.mpr fun h => hclaim ((hasClaim_iff ..).mp h)
  exact exec_hubReset_supervisor hrun hrole (withClaim_no hno)

theorem exec_hubReset_claimed (hrun : s.running p = true) (hrole : (s.port p).role = .supervisor)
    (hclaim : (s.sem 0).owner = some p) :
    exec (.hubReset p) s = .next (s.answers p .hubReset [0x00] .hubReset) :=
  exec_hubReset_supervisor hrun hrole (withClaim_yes ((hasClaim_iff ..).mpr hclaim))

/-! ### The normal end of PORT RESET and the pin PRSTxN (R159, R161) -/

theorem exec_portResetNormalEnd (hrun : s.running p = true) {f : Frame} (hf : (s.port p).frame = some f)
    (hkind : f.kind = some .portReset) :
    exec (.portResetNormalEnd p) s = .next ((s.noFrame p).resetPort p) :=
  congrArg Host.Outcome.next (frameEnd_running hrun hf hkind)

theorem exec_prstxnFall_running (hrun : s.running p = true) :
    exec (.prstxnFall p) s = .next ((s.resetPort p).setPrst p true) := congrArg Host.Outcome.next (if_pos hrun)

theorem exec_prstxnFall_not_running (hrun : s.running p = false) :
    exec (.prstxnFall p) s = .next (s.setPrst p true) := congrArg Host.Outcome.next (if_neg (Bool.eq_false_iff.mp hrun))

theorem exec_prstxnRise_inReset (hreset : (s.port p).inReset = true) :
    exec (.prstxnRise p) s = .next (s.setPrst p false) := congrArg Host.Outcome.next (if_pos hreset)

theorem exec_prstxnRise_up (hreset : (s.port p).inReset = false) : exec (.prstxnRise p) s = .next s :=
  congrArg Host.Outcome.next (if_neg (Bool.eq_false_iff.mp hreset))

/-- Settles O6, event by event; the two request parts by the checks that come first. -/
theorem resetFramesAndPinsOfAPort : Obligations.ResetFramesAndPinsOfAPort :=
  ⟨⟨fun _ _ _ hrun hf hkind => exec_portResetNormalEnd hrun hf hkind, fun _ _ hrun => exec_prstxnFall_running hrun,
      fun _ _ hrun => exec_prstxnFall_not_running hrun, fun _ _ hreset => exec_prstxnRise_inReset hreset,
      fun _ _ hreset => exec_prstxnRise_up hreset⟩,
    fun _ _ hrun => ⟨exec_portReset hrun, exec_hubReset_member hrun, exec_hubReset_unclaimed hrun,
      exec_hubReset_claimed hrun⟩⟩

end Sys2Proof.Machine
end

section
/-! PROOF. The bytes of one frame: how long its request part is, which commands they are, and that the request bytes of
a command are read back as it (R154 to R158, R166). -/

namespace Sys2Proof

set_option Elab.async false

variable {p : Port} {k : FrameKind} {n : Nat} {rest head data : List Byte} {w : Byte}

/-! ### The request part (R154) -/

theorem FrameKind.ofCode_code (k : FrameKind) : FrameKind.ofCode k.code = some k := by
  cases k <;> rfl

theorem FrameKind.requestPart_of_ne_submit (hk : k ≠ .submit) (bytes : List Byte) :
    k.requestPart bytes = some k.requestLen := by
  cases k with
  | submit => exact absurd rfl hk
  | _ => rfl

/-- A SUBMIT whose write count has not come has no length yet. -/
theorem FrameKind.requestPart_submit_short {bytes : List Byte} (h : bytes.length ≤ 10) :
    FrameKind.submit.requestPart bytes = none := by
  rw [FrameKind.requestPart, List.getElem?_eq_none h, Option.map_none]

/-- The write count of a SUBMIT is the byte after the nine fields that follow the kind. -/
theorem FrameKind.requestPart_submit (hhead : head.length = 9) (w : Byte) (data : List Byte) :
    FrameKind.submit.requestPart (FrameKind.submit.code :: head ++ w :: data) = some (11 + w.toNat) := by
  have hcount : (FrameKind.submit.code :: head ++ w :: data)[10]? = some w := by
    rw [List.getElem?_append_right (by simp [hhead])]
    simp [hhead]
  rw [FrameKind.requestPart, hcount, Option.map_some]

/-! ### Which commands the bytes are (R155 to R158) -/

theorem frameCommands_unknown {kind : Byte} (hkind : FrameKind.ofCode kind = none) (rest : List Byte) :
    frameCommands p (kind :: rest) = .badFrame p kind :: if rest.length < 2 then [.frameEndsEarly p] else [] := by
  have hend : (kind :: rest).length < 3 ↔ rest.length < 2 := Nat.succ_lt_succ_iff
  simp only [frameCommands, hkind, hend]

/-- The request part is incomplete: its length has not come, or not all of its bytes have (R156). -/
theorem frameCommands_incomplete (h : ∀ n, k.requestPart (k.code :: rest) = some n → rest.length + 1 < n) :
    frameCommands p (k.code :: rest) = [.framingError p] := by
  simp only [frameCommands, k.ofCode_code]
  cases hn : k.requestPart (k.code :: rest) with
  | none => rfl
  | some n => exact if_pos (h n hn)

/-- The request part is complete: it is the frame's command, and what follows the reply part tells the end (R158). -/
theorem frameCommands_complete {request after : List Byte} (hn : k.requestPart (k.code :: request ++ after) =
    some (request.length + 1)) : frameCommands p (k.code :: request ++ after) =
      k.command p (k.code :: request) ::
        if after.length < 1 + k.replyLen then [.frameEndsEarly p] else k.normalEnd p := by
  rw [List.cons_append] at hn ⊢
  have htake : (k.code :: (request ++ after)).take (request.length + 1) = k.code :: request := by simp
  have hlong : ¬(k.code :: (request ++ after)).length < request.length + 1 := by simp
  have hend : (k.code :: (request ++ after)).length < request.length + 1 + 1 + k.replyLen ↔
      after.length < 1 + k.replyLen := by
    simp only [List.length_cons, List.length_append]
    omega
  simp only [frameCommands, k.ofCode_code, hn, htake, if_neg hlong, hend]

theorem frameCommands_short (h : rest.length + 1 < k.requestLen) :
    frameCommands p (k.code :: rest) = [.framingError p] := by
  refine frameCommands_incomplete fun n hn => ?_
  by_cases hk : k = .submit
  · subst hk
    rw [FrameKind.requestPart_submit_short (by simpa [FrameKind.requestLen, Nat.lt_succ_iff] using h)] at hn
    cases hn
  · rw [FrameKind.requestPart_of_ne_submit hk] at hn
    exact Option.some.inj hn ▸ h

theorem frameCommands_submit_short (hhead : head.length = 9) (hdata : data.length < w.toNat) :
    frameCommands p (FrameKind.submit.code :: head ++ w :: data) = [.framingError p] := by
  refine frameCommands_incomplete (k := .submit) (rest := head ++ w :: data) fun n hn => ?_
  rw [← List.cons_append, FrameKind.requestPart_submit hhead] at hn
  obtain rfl := Option.some.inj hn
  simp only [List.length_append, List.length_cons, hhead]
  omega

theorem frameCommands_fixed (hk : k ≠ .submit) {body : List Byte} (hbody : body.length + 1 = k.requestLen)
    (after : List Byte) : frameCommands p (k.code :: body ++ after) = k.command p (k.code :: body) ::
      if after.length < 1 + k.replyLen then [.frameEndsEarly p] else k.normalEnd p :=
  frameCommands_complete ((FrameKind.requestPart_of_ne_submit hk _).trans (congrArg some hbody.symm))

theorem frameCommands_submit (hhead : head.length = 9) (hdata : data.length = w.toNat) (after : List Byte) :
    frameCommands p (FrameKind.submit.code :: head ++ w :: data ++ after) =
      FrameKind.submit.command p (FrameKind.submit.code :: head ++ w :: data) ::
        if after.length < 3 then [.frameEndsEarly p] else [] := by
  refine frameCommands_complete (k := .submit) (request := head ++ w :: data) ?_
  have hlen : (head ++ w :: data).length + 1 = 11 + w.toNat := by
    simp only [List.length_append, List.length_cons, hhead]
    omega
  rw [hlen, ← FrameKind.requestPart_submit hhead w (data ++ after)]
  simp

/-- Settles O8: the kind by its code, then the length of its request part. -/
theorem framesAreCutAsTheirBytesSay : Obligations.FramesAreCutAsTheirBytesSay :=
  ⟨fun _ => rfl, fun _ _ rest hkind => frameCommands_unknown hkind rest, fun _ _ _ h => frameCommands_short h,
    fun _ _ _ _ hhead hdata => frameCommands_submit_short hhead hdata,
    fun _ _ _ after hk hbody => frameCommands_fixed hk hbody after,
    fun _ _ _ after _ hhead hdata => frameCommands_submit hhead hdata after⟩

/-! ### The request bytes of a command (section 11.3) -/

/-- A number of two bytes is its upper byte followed by its lower byte (R166). -/
theorem upper_append_lower (x : BitVec 16) : x.extractLsb' 8 8 ++ x.extractLsb' 0 8 = x := by
  rw [BitVec.extractLsb'_append_extractLsb'_eq_extractLsb' (by rfl)]
  exact BitVec.extractLsb'_eq_self

/-- The bytes of a command that is no SUBMIT are a kind and as many operand bytes as its layout has, and are read back
as the command. -/
theorem requestBytes_fixed {c : Instr} {bytes : List Byte} (hc : ∀ p f, c ≠ .submit p f) (hp : c.port? = some p)
    (hbytes : c.requestBytes = some bytes) : ∃ (k : FrameKind) (body : List Byte), bytes = k.code :: body ∧
      k ≠ .submit ∧ body.length + 1 = k.requestLen ∧ k.command p (k.code :: body) = c := by
  cases c with
  | submit p f => exact absurd rfl (hc p f)
  | pollSet q f =>
    cases hp
    cases hbytes
    refine ⟨.pollSet, _, rfl, nofun, rfl, ?_⟩
    exact congrArg (fun x => Instr.pollSet p { f with period := x }) (upper_append_lower f.period)
  | cancel | laneInspect | fetch | postedFault | holdEnds | notices | causes | causeMask | semTake | semGive | semBreak
  | routeSet | routeClear | routeGet | pollStart | pollStop | pollGet | pollRead | segmentSet | segmentGet
  | segmentDisable | segmentRestore | statsClear | hubInfo | portReset | hubReset =>
    cases hp
    cases hbytes
    exact ⟨_, _, rfl, nofun, rfl, rfl⟩
  | _ => cases hbytes

/-- The nine fields of a SUBMIT between its kind and its write count. -/
def SubmitFields.operands (f : SubmitFields) : List Byte :=
  [f.tag, f.kind, f.mode, f.aliasByte, f.segment, f.target, f.flags, f.readLen, f.holdLimit]

theorem SubmitFields.bytes_eq (f : SubmitFields) :
    f.bytes = FrameKind.submit.code :: f.operands ++ BitVec.ofNat 8 f.data.length :: f.data := rfl

/-- A write count that one byte holds is read back as the number of data bytes. -/
theorem SubmitFields.toNat_count {f : SubmitFields} (hf : f.wf = true) :
    (BitVec.ofNat 8 f.data.length).toNat = f.data.length := by
  have hlen : f.data.length ≤ 255 := by simpa [SubmitFields.wf] using hf
  exact Nat.mod_eq_of_lt (Nat.lt_succ_of_le hlen)

theorem command_submit_bytes {f : SubmitFields} (hf : f.wf = true) :
    FrameKind.submit.command p f.bytes = .submit p f := by
  have hdata : f.data.take (BitVec.ofNat 8 f.data.length).toNat = f.data := by
    rw [SubmitFields.toNat_count hf, List.take_length]
  exact congrArg (fun data => Instr.submit p { f with data := data }) hdata

/-- Settles O9: SUBMIT by its write count, every other frame by the fixed length of its layout. -/
theorem frameBytesRoundTrip : Obligations.FrameBytesRoundTrip := by
  intro c p bytes after hwf hp hbytes
  by_cases hc : ∃ q f, c = .submit q f
  · obtain ⟨q, f, rfl⟩ := hc
    obtain rfl : q = p := Option.some.inj hp
    obtain rfl : f.bytes = bytes := Option.some.inj hbytes
    refine ⟨.submit, rfl, fun hafter => ?_⟩
    rw [f.bytes_eq, frameCommands_submit rfl (SubmitFields.toNat_count hwf).symm, ← f.bytes_eq,
      command_submit_bytes hwf]
    exact congrArg _ (if_neg (Nat.not_lt.mpr hafter))
  · push Not at hc
    obtain ⟨k, body, rfl, hk, hlen, hcommand⟩ := requestBytes_fixed hc hp hbytes
    refine ⟨k, rfl, fun hafter => ?_⟩
    rw [frameCommands_fixed hk hlen, hcommand, if_neg (Nat.not_lt.mpr hafter)]

end Sys2Proof
end

section
/-! PROOF. The reply part of each frame kind: every block answers a frame with the fixed length of its kind, whatever
its status (R167). -/

namespace Sys2Proof.Machine

set_option Elab.async false

open State

variable {s : State} {p : Port} {k : FrameKind} {n : Nat} {b : Byte}

/-! ### Answers that fill the reply part -/

/-- The reply of a block's answer has the length of the reply part of kind `k` (section 11.3). -/
def Answer.Fills (a : Answer) (k : FrameKind) : Prop := a.reply.length = k.replyLen

theorem answer_fills (st : ReplyStatus) (fields : List Byte) (snap : Snapshot) :
    (⟨s, answer k st fields, snap⟩ : Answer).Fills k := answer_length ..

theorem refuse_fills (st : ReplyStatus) : (refuse s k st).Fills k := answer_fills ..

theorem withIndex_fills {act : Fin n → Answer} (hact : ∀ i, (act i).Fills k) : (withIndex n b k s act).Fills k := by
  unfold withIndex
  split
  · exact hact _
  · exact refuse_fills _

theorem withClaim_fills {a : Answer} (ha : a.Fills k) : (withClaim p k s a).Fills k := by
  unfold withClaim
  split
  · exact ha
  · exact refuse_fills _

/-! ### The blocks that answer by what they find -/

theorem routeSet_fills (s : State) (i : RouteIdx) (f : RouteFields) : (s.routeSet i f).Fills .routeSet := by
  unfold State.routeSet
  split
  · exact refuse_fills _
  · split
    · exact refuse_fills _
    · split <;> exact answer_fills ..

theorem routeClear_fills (s : State) (i : RouteIdx) : (s.routeClear i).Fills .routeClear := by
  unfold State.routeClear
  split <;> exact answer_fills ..

theorem pollSet_fills (s : State) (n : PollIdx) (f : PollFields) : (s.pollSet n f).Fills .pollSet := by
  unfold State.pollSet
  split
  · exact refuse_fills _
  · split
    · exact answer_fills ..
    · exact refuse_fills _

theorem pollStart_fills (s : State) (n : PollIdx) : (s.pollStart n).Fills .pollStart := by
  unfold State.pollStart
  dsimp only
  split
  · exact answer_fills ..
  · exact refuse_fills _

theorem segmentSet_fills (s : State) (g : Seg) (f : SegmentFields) : (s.segmentSet g f).Fills .segmentSet := by
  unfold State.segmentSet
  split
  · exact refuse_fills _
  · exact answer_fills ..

theorem segmentDisable_fills (s : State) (g : Seg) : (s.segmentDisable g).Fills .segmentDisable := by
  unfold State.segmentDisable
  split
  · exact refuse_fills _
  all_goals exact answer_fills ..

theorem segmentRestore_fills (s : State) (g : Seg) : (s.segmentRestore g).Fills .segmentRestore := by
  unfold State.segmentRestore
  split
  · exact answer_fills ..
  · exact refuse_fills _

/-! ### The reply part of a frame that was taken (R155, R167) -/

/-- The command is taken, and the port then holds a whole reply part of kind `k`. -/
def RepliesInFull (c : Instr) (k : FrameKind) (p : Port) (s : State) : Prop :=
  ∃ t, exec c s = .next t ∧ (t.reply p).map List.length = some k.replyLen

theorem takeFrame_reply {k : Option FrameKind} {act : State → Answer} (hrun : s.running p = true) :
    (takeFrame p k n act s).reply p = some (act (s.noFrame p)).reply := by
  simp [takeFrame_running hrun, State.reply]

variable {c : Instr}

theorem RepliesInFull.of_takeFrame {act : State → Answer} (hrun : s.running p = true)
    (hexec : exec c s = .next (takeFrame p (some k) n act s)) (hact : (act (s.noFrame p)).Fills k) :
    RepliesInFull c k p s :=
  ⟨_, hexec, by rw [takeFrame_reply hrun, Option.map_some, hact]⟩

theorem RepliesInFull.of_indexedFrame {act : State → Fin n → Answer} (hrun : s.running p = true)
    (hexec : exec c s = .next (indexedFrame p k b act s)) (hact : ∀ s i, (act s i).Fills k) : RepliesInFull c k p s := by
  rw [indexedFrame, frameOf] at hexec
  exact .of_takeFrame hrun hexec (withIndex_fills (hact _))

theorem RepliesInFull.of_claimedFrame {act : State → Fin n → Answer} (hrun : s.running p = true)
    (hexec : exec c s = .next (claimedFrame p k b act s)) (hact : ∀ s i, (act s i).Fills k) : RepliesInFull c k p s := by
  rw [claimedFrame, frameOf] at hexec
  exact .of_takeFrame hrun hexec (withClaim_fills (withIndex_fills (hact _)))

/-- The reply of a semaphore frame carries a status, the number and the owner also where the number names none. -/
theorem RepliesInFull.of_semFrame {act : State → SemIdx → State × ReplyStatus} (hrun : s.running p = true)
    (hexec : exec c s = .next (semFrame p k b act s)) : RepliesInFull c k p s := by
  rw [semFrame, frameOf] at hexec
  refine .of_takeFrame hrun hexec ?_
  split <;> exact answer_fills ..

theorem RepliesInFull.of_answers {t : State} {st : ReplyStatus} {fields : List Byte} {snap : Snapshot}
    (hexec : exec c s = .next (t.answers p k (answer k st fields) snap)) : RepliesInFull c k p s :=
  ⟨_, hexec, by rw [answers_reply, Option.map_some, answer_length]⟩

/-! ### Every frame kind -/

/-- Admitted or refused, a SUBMIT is answered with a status and its tag. -/
theorem submit_repliesInFull (hrun : s.running p = true) (f : SubmitFields) :
    RepliesInFull (.submit p f) .submit p s := by
  refine .of_takeFrame hrun rfl ?_
  split <;> exact answer_fills ..

theorem semBreak_repliesInFull (hrun : s.running p = true) (b : Byte) :
    RepliesInFull (.semBreak p b) .semBreak p s := by
  cases hrole : (s.port p).role with
  | member => exact .of_answers (exec_semBreak_member hrun hrole)
  | supervisor => exact .of_semFrame hrun (exec_semBreak_supervisor hrole)

theorem hubReset_repliesInFull (hrun : s.running p = true) : RepliesInFull (.hubReset p) .hubReset p s := by
  refine .of_takeFrame hrun rfl ?_
  split
  · exact refuse_fills _
  · exact withClaim_fills (answer_fills ..)

/-- The frame of any kind, whatever its operand bytes. -/
theorem command_repliesInFull (hrun : s.running p = true) (k : FrameKind) (bytes : List Byte) :
    RepliesInFull (k.command p bytes) k p s := by
  cases k with
  | submit => exact submit_repliesInFull hrun _
  | fetch | postedFault =>
    refine .of_takeFrame hrun rfl ?_
    split <;> exact answer_fills ..
  | cancel | laneInspect | holdEnds | notices | causes | causeMask | hubInfo | portReset =>
    exact .of_takeFrame hrun rfl (answer_fills ..)
  | semTake | semGive => exact .of_semFrame hrun rfl
  | semBreak => exact semBreak_repliesInFull hrun _
  | routeSet => exact .of_claimedFrame hrun rfl fun s i => routeSet_fills s i _
  | routeClear => exact .of_claimedFrame hrun rfl routeClear_fills
  | pollSet => exact .of_claimedFrame hrun rfl fun s n => pollSet_fills s n _
  | pollStart => exact .of_claimedFrame hrun rfl pollStart_fills
  | segmentSet => exact .of_claimedFrame hrun rfl fun s g => segmentSet_fills s g _
  | segmentDisable => exact .of_claimedFrame hrun rfl segmentDisable_fills
  | segmentRestore => exact .of_claimedFrame hrun rfl segmentRestore_fills
  | pollStop | statsClear => exact .of_claimedFrame hrun rfl fun _ _ => answer_fills ..
  | routeGet | pollGet | pollRead | segmentGet => exact .of_indexedFrame hrun rfl fun _ _ => answer_fills ..
  | hubReset => exact hubReset_repliesInFull hrun

theorem frameKind_code_injective : Function.Injective FrameKind.code := fun k l h =>
  Option.some.inj (k.ofCode_code.symm.trans ((congrArg FrameKind.ofCode h).trans l.ofCode_code))

/-- Settles O11: the first byte names the kind, and every frame of that kind has its whole reply part. -/
theorem replyLengthsAreFixed : Obligations.ReplyLengthsAreFixed := by
  intro c k p s bytes hbytes hhead hp hrun
  by_cases hc : ∃ q f, c = .submit q f
  · obtain ⟨q, f, rfl⟩ := hc
    obtain rfl : q = p := Option.some.inj hp
    obtain rfl : f.bytes = bytes := Option.some.inj hbytes
    obtain rfl : FrameKind.submit = k := frameKind_code_injective (Option.some.inj hhead)
    exact submit_repliesInFull hrun f
  · push Not at hc
    obtain ⟨l, body, rfl, -, -, rfl⟩ := requestBytes_fixed hc hp hbytes
    obtain rfl : l = k := frameKind_code_injective (Option.some.inj hhead)
    exact command_repliesInFull hrun l _

end Sys2Proof.Machine
end
